-- ==== Sys2Proof/Word.lean ====
section
/-! DEFINITION. The engine's scalar types (00_scope.md rules R5, R7, R8, R9). Word addition `+32` is `BitVec` addition
at width 32, `~`, `&`, `|`, `^` are the bitwise operations of `BitVec`, and counter addition `+64` is `BitVec` addition
at width 64: every one wraps silently and sets no flag (R8, R9, R32). -/

namespace Sys2Proof

/-- A word: an unsigned 32-bit value (R7). -/
abbrev Word := BitVec 32

/-- A byte: an unsigned 8-bit value (R7). -/
abbrev Byte := BitVec 8

/-- The bit counter's value: one unsigned 64-bit number (R9, R23). -/
abbrev Count := BitVec 64

end Sys2Proof
end

