-- ==== Sys2Proof/Config.lean ====
section
/-! DEFINITION. The two parameters the spec leaves to the model, at the defaults it names (00_scope.md rule R6). The spec
leaves no value open, so there is no free value here (93_implementation_defined.md section 1, last paragraph). -/

namespace Sys2Proof.Config

/-- `MAX_UPDATE_LEN`, the largest payload of one UPDATE in bytes: `none` is the spec's default, unbounded (R6, R62).
The decoder takes the bound as an argument, so statements can be made for every value of it. Log 11. -/
def maxUpdateLen : Option Nat := none

/-- `N_ENGINES`, the number of independent engines, at the spec's default (R6, R222). Log 12. -/
def nEngines : Nat := 1

end Sys2Proof.Config
end

