-- ==== Sys2Proof/Syntax.lean ====
section
/-! DEFINITION. The engine's instructions, one constructor per row of spec/opcode_table.json (30_encoding.md rules R60,
R61, R64, R73), and the words they are encoded in. -/

namespace Sys2Proof

/-- The instructions: the four rows of format `CMD` and the 64 rows of format `STEP`. -/
inductive Instr where
  /-- INIT, start a digest (R80). -/
  | init
  /-- UPDATE with its payload `data[0..n)`, first message byte first (R62, R85). -/
  | update (data : List Byte)
  /-- FINAL, finish the digest (R190). -/
  | final
  /-- The reserved command word `0b11` (R67, R214). -/
  | reserved3
  -- Round 1: steps 0 to 15 (R111 to R126).
  | ff00 | ff01 | ff02 | ff03
  | ff04 | ff05 | ff06 | ff07
  | ff08 | ff09 | ff10 | ff11
  | ff12 | ff13 | ff14 | ff15
  -- Round 2: steps 16 to 31 (R131 to R146).
  | gg16 | gg17 | gg18 | gg19
  | gg20 | gg21 | gg22 | gg23
  | gg24 | gg25 | gg26 | gg27
  | gg28 | gg29 | gg30 | gg31
  -- Round 3: steps 32 to 47 (R151 to R166).
  | hh32 | hh33 | hh34 | hh35
  | hh36 | hh37 | hh38 | hh39
  | hh40 | hh41 | hh42 | hh43
  | hh44 | hh45 | hh46 | hh47
  -- Round 4: steps 48 to 63 (R171 to R186).
  | ii48 | ii49 | ii50 | ii51
  | ii52 | ii53 | ii54 | ii55
  | ii56 | ii57 | ii58 | ii59
  | ii60 | ii61 | ii62 | ii63
  deriving DecidableEq, Repr

/-- A command as the host's transport delivers it: the 2-bit command word and the bytes that follow it up to the
end-of-payload mark (R61, R62, R63). -/
structure CommandWords where
  /-- `op[1:0]` (R61). -/
  op : BitVec 2
  /-- The bytes after the command word, first byte first (R62). -/
  payload : List Byte
  deriving DecidableEq, Repr

/-- The encoded form of an instruction, in one of the two encoding spaces, which never mix (R60). -/
inductive Words where
  /-- Command space: supplied by the host. -/
  | command (w : CommandWords)
  /-- Step space: the step index, supplied by the transform's sequencer (R64). -/
  | step (i : BitVec 6)
  deriving DecidableEq, Repr

/-- Whether an instruction is a row of format `STEP` (R60). -/
def Instr.isStep : Instr → Bool
  | .init | .update _ | .final | .reserved3 => false
  | .ff00 | .ff01 | .ff02 | .ff03 | .ff04 | .ff05 | .ff06 | .ff07
  | .ff08 | .ff09 | .ff10 | .ff11 | .ff12 | .ff13 | .ff14 | .ff15
  | .gg16 | .gg17 | .gg18 | .gg19 | .gg20 | .gg21 | .gg22 | .gg23
  | .gg24 | .gg25 | .gg26 | .gg27 | .gg28 | .gg29 | .gg30 | .gg31
  | .hh32 | .hh33 | .hh34 | .hh35 | .hh36 | .hh37 | .hh38 | .hh39
  | .hh40 | .hh41 | .hh42 | .hh43 | .hh44 | .hh45 | .hh46 | .hh47
  | .ii48 | .ii49 | .ii50 | .ii51 | .ii52 | .ii53 | .ii54 | .ii55
  | .ii56 | .ii57 | .ii58 | .ii59 | .ii60 | .ii61 | .ii62 | .ii63 => true

end Sys2Proof
end

