-- ==== Sys2Proof/WellFormed.lean ====
section
/-! DEFINITION. Which instructions are well formed. The only operand a host chooses is UPDATE's payload (30_encoding.md
rule R62); its one limit is the parameter `MAX_UPDATE_LEN` (00_scope.md rule R6). -/

namespace Sys2Proof

/-- Whether a payload of `n` bytes respects a `MAX_UPDATE_LEN` of `cap` (`none`: unbounded) (R6, R62). -/
def payloadFits (cap : Option Nat) (n : Nat) : Bool :=
  match cap with
  | none => true
  | some m => decide (n ≤ m)

/-- Well-formedness under a given `MAX_UPDATE_LEN`. -/
def Instr.wfWith (cap : Option Nat) : Instr → Bool
  | .update data => payloadFits cap data.length
  | .init | .final | .reserved3 => true
  | .ff00 | .ff01 | .ff02 | .ff03 | .ff04 | .ff05 | .ff06 | .ff07
  | .ff08 | .ff09 | .ff10 | .ff11 | .ff12 | .ff13 | .ff14 | .ff15
  | .gg16 | .gg17 | .gg18 | .gg19 | .gg20 | .gg21 | .gg22 | .gg23
  | .gg24 | .gg25 | .gg26 | .gg27 | .gg28 | .gg29 | .gg30 | .gg31
  | .hh32 | .hh33 | .hh34 | .hh35 | .hh36 | .hh37 | .hh38 | .hh39
  | .hh40 | .hh41 | .hh42 | .hh43 | .hh44 | .hh45 | .hh46 | .hh47
  | .ii48 | .ii49 | .ii50 | .ii51 | .ii52 | .ii53 | .ii54 | .ii55
  | .ii56 | .ii57 | .ii58 | .ii59 | .ii60 | .ii61 | .ii62 | .ii63 => true

/-- Well-formedness under the configured `MAX_UPDATE_LEN`. -/
def Instr.wellFormed (i : Instr) : Bool := i.wfWith Config.maxUpdateLen

end Sys2Proof
end

