-- ==== Sys2Proof/Decode.lean ====
section
/-! DEFINITION. The decoder and the encoder of both encoding spaces (30_encoding.md rules R60 to R68, R73), and the host's
`decodeTableWord`. The decoder is total: words it does not accept are rejected by name. -/

namespace Sys2Proof

/-- Why the decoder rejects command words. Safe: the format of R61 to R63 has no such command. -/
inductive DecodeError where
  /-- Bytes follow a command word other than UPDATE's; R61 and R63 give those commands no payload. Log 6. -/
  | payloadNotAllowed (op : BitVec 2)
  /-- The payload has more bytes than `MAX_UPDATE_LEN` allows (R62). Log 11. -/
  | payloadTooLong (n : Nat)
  deriving DecidableEq, Repr

/-- A command without a payload is its op alone (R61, R63). -/
def withoutPayload (w : CommandWords) (i : Instr) : Except DecodeError Instr :=
  if w.payload = [] then .ok i else .error (.payloadNotAllowed w.op)

/-- The command space under a given `MAX_UPDATE_LEN`: `0b00` INIT, `0b01` UPDATE, `0b10` FINAL, `0b11` reserved (R61). -/
def decodeCommandWith (cap : Option Nat) (w : CommandWords) : Except DecodeError Instr :=
  if w.op = 0b00#2 then withoutPayload w .init
  else if w.op = 0b01#2 then
    if payloadFits cap w.payload.length then .ok (.update w.payload) else .error (.payloadTooLong w.payload.length)
  else if w.op = 0b10#2 then withoutPayload w .final
  else withoutPayload w .reserved3

/-- Round 1, positions 0 to 15: the steps with `r = 0` (R64, R107). -/
def round1Row : Vector Instr 16 :=
  #v[.ff00, .ff01, .ff02, .ff03, .ff04, .ff05, .ff06, .ff07,
    .ff08, .ff09, .ff10, .ff11, .ff12, .ff13, .ff14, .ff15]

/-- Round 2, positions 0 to 15: the steps with `r = 1` (R64, R107). -/
def round2Row : Vector Instr 16 :=
  #v[.gg16, .gg17, .gg18, .gg19, .gg20, .gg21, .gg22, .gg23,
    .gg24, .gg25, .gg26, .gg27, .gg28, .gg29, .gg30, .gg31]

/-- Round 3, positions 0 to 15: the steps with `r = 2` (R64, R107). -/
def round3Row : Vector Instr 16 :=
  #v[.hh32, .hh33, .hh34, .hh35, .hh36, .hh37, .hh38, .hh39,
    .hh40, .hh41, .hh42, .hh43, .hh44, .hh45, .hh46, .hh47]

/-- Round 4, positions 0 to 15: the steps with `r = 3` (R64, R107). -/
def round4Row : Vector Instr 16 :=
  #v[.ii48, .ii49, .ii50, .ii51, .ii52, .ii53, .ii54, .ii55,
    .ii56, .ii57, .ii58, .ii59, .ii60, .ii61, .ii62, .ii63]

/-- The sixteen steps of a round, selected by the field `r = i[5:4]` (R64). -/
def roundRow (r : BitVec 2) : Vector Instr 16 :=
  if r = 0 then round1Row else if r = 1 then round2Row else if r = 2 then round3Row else round4Row

/-- The step space: `r = i[5:4]` selects the round and `p = i[3:0]` the position; all 64 indexes are defined (R64, R67). -/
def decodeStep (i : BitVec 6) : Instr :=
  let p := i.extractLsb' 0 4
  (roundRow (i.extractLsb' 4 2)).get ⟨p.toNat, p.isLt⟩

/-- The decoder under a given `MAX_UPDATE_LEN`. -/
def decodeWith (cap : Option Nat) : Words → Except DecodeError Instr
  | .command w => decodeCommandWith cap w
  | .step i => .ok (decodeStep i)

/-- The decoder under the configured `MAX_UPDATE_LEN`. -/
def decode (w : Words) : Except DecodeError Instr := decodeWith Config.maxUpdateLen w

/-- The encoder, from the `encoding` column of the opcode table (R61, R64, R73). -/
def encode : Instr → Words
  | .init => .command ⟨0b00#2, []⟩
  | .update data => .command ⟨0b01#2, data⟩
  | .final => .command ⟨0b10#2, []⟩
  | .reserved3 => .command ⟨0b11#2, []⟩
  | .ff00 => .step 0b000000#6
  | .ff01 => .step 0b000001#6
  | .ff02 => .step 0b000010#6
  | .ff03 => .step 0b000011#6
  | .ff04 => .step 0b000100#6
  | .ff05 => .step 0b000101#6
  | .ff06 => .step 0b000110#6
  | .ff07 => .step 0b000111#6
  | .ff08 => .step 0b001000#6
  | .ff09 => .step 0b001001#6
  | .ff10 => .step 0b001010#6
  | .ff11 => .step 0b001011#6
  | .ff12 => .step 0b001100#6
  | .ff13 => .step 0b001101#6
  | .ff14 => .step 0b001110#6
  | .ff15 => .step 0b001111#6
  | .gg16 => .step 0b010000#6
  | .gg17 => .step 0b010001#6
  | .gg18 => .step 0b010010#6
  | .gg19 => .step 0b010011#6
  | .gg20 => .step 0b010100#6
  | .gg21 => .step 0b010101#6
  | .gg22 => .step 0b010110#6
  | .gg23 => .step 0b010111#6
  | .gg24 => .step 0b011000#6
  | .gg25 => .step 0b011001#6
  | .gg26 => .step 0b011010#6
  | .gg27 => .step 0b011011#6
  | .gg28 => .step 0b011100#6
  | .gg29 => .step 0b011101#6
  | .gg30 => .step 0b011110#6
  | .gg31 => .step 0b011111#6
  | .hh32 => .step 0b100000#6
  | .hh33 => .step 0b100001#6
  | .hh34 => .step 0b100010#6
  | .hh35 => .step 0b100011#6
  | .hh36 => .step 0b100100#6
  | .hh37 => .step 0b100101#6
  | .hh38 => .step 0b100110#6
  | .hh39 => .step 0b100111#6
  | .hh40 => .step 0b101000#6
  | .hh41 => .step 0b101001#6
  | .hh42 => .step 0b101010#6
  | .hh43 => .step 0b101011#6
  | .hh44 => .step 0b101100#6
  | .hh45 => .step 0b101101#6
  | .hh46 => .step 0b101110#6
  | .hh47 => .step 0b101111#6
  | .ii48 => .step 0b110000#6
  | .ii49 => .step 0b110001#6
  | .ii50 => .step 0b110010#6
  | .ii51 => .step 0b110011#6
  | .ii52 => .step 0b110100#6
  | .ii53 => .step 0b110101#6
  | .ii54 => .step 0b110110#6
  | .ii55 => .step 0b110111#6
  | .ii56 => .step 0b111000#6
  | .ii57 => .step 0b111001#6
  | .ii58 => .step 0b111010#6
  | .ii59 => .step 0b111011#6
  | .ii60 => .step 0b111100#6
  | .ii61 => .step 0b111101#6
  | .ii62 => .step 0b111110#6
  | .ii63 => .step 0b111111#6

/-- The words that a number stands for when an opcode-table row of `nbits` bits is given as one number: 2-bit rows are
command words, 6-bit rows step indexes. The two spaces overlap as numbers; where the width is rounded up to whole bytes,
0 to 3 are read as command words and 4 to 63 as step indexes. UPDATE's payload has no bits in the table and is empty.
Log 5. -/
def tableWords (nbits w : Nat) : Option Words :=
  if nbits ≤ 2 then
    if w < 4 then some (.command ⟨BitVec.ofNat 2 w, []⟩) else none
  else if nbits ≤ 6 then
    if w < 64 then some (.step (BitVec.ofNat 6 w)) else none
  else if w < 4 then some (.command ⟨BitVec.ofNat 2 w, []⟩)
  else if w < 64 then some (.step (BitVec.ofNat 6 w))
  else none

/-- What the decoder reads from an opcode-table word (the host's question; `none` where it refuses). -/
def decodeTableWord (nbits w : Nat) : Option Instr :=
  match tableWords nbits w with
  | none => none
  | some ws =>
    match decode ws with
    | .ok i => some i
    | .error _ => none

end Sys2Proof
end

