-- ==== Sys2Proof/Machine/State.lean ====
section
/-! DEFINITION. The engine's state as plain data (10_state.md rules R20 to R35), the reasons a step can stop, and the
state after reset (R35, 70_reset_and_hazards.md rule R230). -/

namespace Sys2Proof.Machine

/-- The hash state register file `state[0..3]`, four words (R20). -/
structure Hash where
  /-- `state[0]`. -/
  h0 : Word
  /-- `state[1]`. -/
  h1 : Word
  /-- `state[2]`. -/
  h2 : Word
  /-- `state[3]`. -/
  h3 : Word
  deriving DecidableEq, Repr

/-- The four working registers of a block transform (R21). -/
structure Working where
  /-- `working[0]`. -/
  a : Word
  /-- `working[1]`. -/
  b : Word
  /-- `working[2]`. -/
  c : Word
  /-- `working[3]`. -/
  d : Word
  deriving DecidableEq, Repr

/-- The sixteen message words `X[0..15]` of the block being transformed (R22). -/
abbrev MessageWords := Vector Word 16

/-- A block of exactly 64 bytes (R5, R100). -/
abbrev Block := Vector Byte 64

/-- The 16 bytes of a digest, `digest[0]` first (R34). -/
abbrev Digest := Vector Byte 16

/-- Byte storage as (address, byte) pairs: addresses strictly rising, all below 64, no entry equal to 0, the reset
contents, which an unlisted address reads as (R25, R35). Log 9. -/
abbrev Memory := List Host.Cell

/-- The 2-bit `cause` field: why `fault` was set (R31). -/
inductive Cause where
  /-- `0`: no fault. -/
  | none
  /-- `1`, `MISUSE_UPDATE`: UPDATE while `live = 0` (R210). -/
  | misuseUpdate
  /-- `2`, `MISUSE_FINAL`: FINAL while `live = 0` (R211). -/
  | misuseFinal
  /-- `3`, `ILLEGAL_OP`: the reserved command word (R214). -/
  | illegalOp
  deriving DecidableEq, Repr

/-- The locals of a block transform in progress: they exist only inside one transform (R21, R22, R28). Log 3. -/
structure TransformRun where
  /-- The working registers `a, b, c, d` (R21). -/
  regs : Working
  /-- The message words `X[0..15]` (R22). -/
  x : MessageWords
  /-- The step index: the number of the step to be executed next (R28). -/
  i : BitVec 6
  deriving DecidableEq, Repr

/-- What a host action returns to the host (R33, R61, R195). Log 2. -/
inductive HostResult where
  /-- Nothing. -/
  | nothing
  /-- Sixteen digest bytes: FINAL's result, or a read of the `digest` register. -/
  | digest (d : Digest)
  /-- A read of `STATUS`. -/
  | status (v : BitVec 4)
  deriving DecidableEq, Repr

/-- What the host can do to the engine (R235). Log 1. -/
inductive HostAction where
  /-- The reset action, with the command it overtakes: one presented with it or still in progress (R217, R230). Log 15. -/
  | reset (overtaken : Option CommandWords)
  /-- A command: its word and the bytes that follow (R61). -/
  | command (w : CommandWords)
  /-- A read of `STATUS` (R33). -/
  | readStatus
  /-- A read of the register `digest` (R34). -/
  | readDigest
  deriving DecidableEq, Repr

/-- The engine's state. The first seven fields are the spec's architectural state (R35); `transform` holds the locals of
a transform in progress (Log 3); `result` and `pending` are the model's own side of the host interface (Log 1, Log 2). -/
structure State where
  /-- `state[0..3]` (R20). -/
  hash : Hash
  /-- `bit_count` (R23). -/
  bitCount : Count
  /-- `buffer[0..63]` (R25). -/
  buffer : Memory
  /-- `live`: a context has been initialised and not yet finalised (R29). -/
  live : Bool
  /-- `fault`, sticky until reset (R30). -/
  fault : Bool
  /-- `cause` (R31). -/
  cause : Cause
  /-- `digest[0..15]` (R34). -/
  digest : Digest
  /-- The locals of a block transform in progress; absent at every command boundary (R21, R22, R28). -/
  transform : Option TransformRun
  /-- What the most recent host action returned. -/
  result : HostResult
  /-- The host actions not yet taken, oldest first. -/
  pending : List HostAction
  deriving DecidableEq, Repr

/-- Reasons for the machine to stop with a fault: there is none, so the type is empty. The engine's own faults (R210,
R211, R214) set `fault` and `cause` and the machine goes on, refusing commands; there is no access, bounds, alignment or
arithmetic fault (R42, R215). Safe: it claims no behaviour. -/
inductive Fault where
  deriving DecidableEq, Repr

/-- Reasons for the model to give no next state. Each is safe: the model stops where the hardware has no such move. -/
inductive Refusal where
  /-- Raised by `exec` for an instruction that has no meaning yet. Safe. -/
  | notModelled (mnemonic : String)
  /-- Raised by `rejectWords` (a step of the machine) when the pending command words are no command of the format of
  R61 to R63. Safe: the spec gives such words no effect. Log 6. -/
  | undecodable (e : DecodeError)
  /-- Raised by a step of the block transform presented while no transform is in progress; R60 and R67 say that only
  the transform's own counter ever presents a step. Safe. Log 7. -/
  | noTransformInProgress (i : BitVec 6)
  deriving DecidableEq, Repr

/-- The outcome of one step of this machine. -/
abbrev Outcome := Host.Outcome State Fault Refusal

/-- The state after reset: every register at the value of R35's table. -/
def State.reset : State where
  hash := ⟨0, 0, 0, 0⟩
  bitCount := 0
  buffer := []
  live := false
  fault := false
  cause := .none
  digest := Vector.replicate 16 0
  transform := none
  result := .nothing
  pending := []

end Sys2Proof.Machine
end

