-- ==== Sys2Proof/Machine/Ops.lean ====
section
/-! DEFINITION. The named operations over storage and registers that the meanings share: the block buffer (`MemRead`,
`MemWrite`, 00_scope.md rule R11), the fill level (10_state.md rule R24), word rotation (00_scope.md rule R8), and taking
a fault, refusing a command and reset (60_exceptions.md rules R212, R213, R219; 70_reset_and_hazards.md rule R230). -/

namespace Sys2Proof.Machine

/-! ## Words -/

/-- `rotl32(v, s)`: bit `j` moves to bit `(j + s) mod 32` (R8). The engine rotates by 4 to 23 only; other amounts are
taken modulo 32 (93_implementation_defined.md U9). Log 13. -/
def rotl32 (v : Word) (s : Nat) : Word := (v <<< (s % 32)) ||| (v >>> (32 - s % 32))

/-! ## The block buffer -/

/-- One byte of storage; an unlisted address reads as the reset contents 0 (R25, R35). -/
def Memory.read : Memory → Nat → Byte
  | [], _ => 0
  | (c, x) :: m, a => if a = c then x else Memory.read m a

/-- Write one byte, keeping the canonical form: writing 0 removes the entry. -/
def Memory.write (a : Nat) (b : Byte) : Memory → Memory
  | [] => if b = 0 then [] else [(a, b)]
  | (c, x) :: m =>
    if a < c then (if b = 0 then (c, x) :: m else (a, b) :: (c, x) :: m)
    else if a = c then (if b = 0 then m else (a, b) :: m)
    else (c, x) :: Memory.write a b m

/-- The canonical form: addresses strictly rising and below 64, no byte equal to 0. -/
abbrev Memory.wf (m : Memory) : Prop :=
  m.Pairwise (fun p q => p.1 < q.1) ∧ ∀ p ∈ m, p.1 < 64 ∧ p.2 ≠ 0

/-- Write the bytes of `v` at `a`, `a + 1`, ... in ascending order. -/
def Memory.writeBytes : Nat → List Byte → Memory → Memory
  | _, [], m => m
  | a, b :: v, m => Memory.writeBytes (a + 1) v (Memory.write a b m)

/-- `MemRead(addr, n)`: the `n` bytes at `addr`, ascending; requires `addr + n <= 64` (R11). -/
def memRead (m : Memory) (addr n : Nat) (_h : addr + n ≤ 64) : List Byte :=
  (List.range n).map fun j => m.read (addr + j)

/-- `MemWrite(addr, n, v)` with `n` the length of `v`: `v[0]` at `addr`; requires `addr + n <= 64`; every other byte
keeps its value (R11). -/
def memWrite (m : Memory) (addr : Nat) (v : List Byte) (_h : addr + v.length ≤ 64) : Memory :=
  Memory.writeBytes addr v m

/-- The block made of the first 64 bytes of a sequence that has them. -/
def Block.ofList (l : List Byte) (h : 64 ≤ l.length) : Block := ⟨(l.take 64).toArray, by simp [h]⟩

/-- `MemRead(0, 64)`: the whole buffer as a block (R25, R86). -/
def bufferBlock (m : Memory) : Block :=
  Block.ofList (memRead m 0 64 (by decide)) (by simp [memRead])

/-! ## The fill level -/

/-- `index = bit_count[8:3]`, the number of valid bytes in the buffer, 0 to 63 (R24). -/
def fillLevel (c : Count) : Nat := (c.extractLsb' 3 6).toNat

/-- The fill level is at most 63 (R24, R42). -/
theorem fillLevel_lt (c : Count) : fillLevel c < 64 := (c.extractLsb' 3 6).isLt

/-! ## Faults, refusal and reset -/

/-- `raise Fault(c)`: the command ends at once and returns nothing; the only registers written are `fault` and `cause`
(R212, R218). -/
def raiseFault (c : Cause) (s : State) : State := { s with fault := true, cause := c, result := .nothing }

/-- A command refused by the sticky fault: no register changes, nothing is returned (R213). -/
def refuseCommand (s : State) : State := { s with result := .nothing }

/-- The reset action: every register takes its reset value, whatever was in progress; the only way out of a fault (R219,
R230). The actions the host has yet to take, `rest`, remain. Log 15. -/
def applyReset (rest : List HostAction) : State := { State.reset with pending := rest }

end Sys2Proof.Machine
end

