-- ==== Sys2Proof/Machine/Flags.lean ====
section
/-! DEFINITION. The flags as the host sees them (10_state.md rules R29 to R33). No arithmetic operation computes a flag
(R32): `live` is written by INIT and FINAL, `fault` and `cause` by `raiseFault` and reset. -/

namespace Sys2Proof.Machine

/-- The 2-bit code of a cause (R31). -/
def Cause.code : Cause → BitVec 2
  | .none => 0
  | .misuseUpdate => 1
  | .misuseFinal => 2
  | .illegalOp => 3

/-- `STATUS`: bit 0 `live`, bit 1 `fault`, bits 3:2 `cause` (R33). -/
def State.status (s : State) : BitVec 4 := (s.cause.code ++ BitVec.ofBool s.fault ++ BitVec.ofBool s.live : BitVec 4)

/-- A host read of `STATUS`: returns the view, changes no register (R33, R46). -/
def hostReadStatus (s : State) : State := { s with result := .status s.status }

/-- A host read of `digest`: returns the register, changes no register (R34, R46). -/
def hostReadDigest (s : State) : State := { s with result := .digest s.digest }

end Sys2Proof.Machine
end

