-- ==== Sys2Proof/Machine/Codec.lean ====
section
/-! DEFINITION. The little-endian word codec (48_codec.md rules R200 to R205; 20_memory.md rules R43, R44). -/

namespace Sys2Proof.Machine

/-- `Decode32LE`: `b0` is bits 7:0, `b1` bits 15:8, `b2` bits 23:16, `b3` bits 31:24 (R200). -/
def decode32LE (b0 b1 b2 b3 : Byte) : Word := (b3 ++ b2 ++ b1 ++ b0 : BitVec 32)

/-- `Encode32LE`: least significant byte first (R201). -/
def encode32LE (w : Word) : List Byte :=
  [w.extractLsb' 0 8, w.extractLsb' 8 8, w.extractLsb' 16 8, w.extractLsb' 24 8]

/-- `Encode64LE`: least significant byte first, so the low half comes first (R202). -/
def encode64LE (v : Count) : List Byte :=
  [v.extractLsb' 0 8, v.extractLsb' 8 8, v.extractLsb' 16 8, v.extractLsb' 24 8,
    v.extractLsb' 32 8, v.extractLsb' 40 8, v.extractLsb' 48 8, v.extractLsb' 56 8]

/-- Message word `j` of a block: the word at block bytes `4j .. 4j+3` (R44, R204). -/
def messageWord (b : Block) (j : Fin 16) : Word :=
  decode32LE (b.get ⟨4 * j, by omega⟩) (b.get ⟨4 * j + 1, by omega⟩) (b.get ⟨4 * j + 2, by omega⟩)
    (b.get ⟨4 * j + 3, by omega⟩)

/-- The sixteen message words of a block (R44, R100). -/
def messageWords (b : Block) : MessageWords := Vector.ofFn (messageWord b)

/-- The hash state as the 16 bytes of a digest: `state[0]` first, each word little-endian (R194, R204). -/
def digestOf (h : Hash) : Digest :=
  ⟨(encode32LE h.h0 ++ encode32LE h.h1 ++ encode32LE h.h2 ++ encode32LE h.h3).toArray, rfl⟩

end Sys2Proof.Machine
end

