-- ==== Sys2Proof/Machine/Operands.lean ====
section
/-! DEFINITION. The operands of a step: the four mixing functions (rules R110, R130, R150, R170), the registers a step
names, the one shared step operation (42_block_transform.md rule R101), and the operand decoding of a step index with its
three tables (30_encoding.md rule R65; 42_block_transform.md rules R103, R104, R105). The numbers are the spec's, from
general knowledge of RFC 1321 (93_implementation_defined.md G1 to G4). Log 10. -/

namespace Sys2Proof.Machine

/-! ## The round functions -/

/-- `F(x, y, z) = (x & y) | (~x & z)` (R110). -/
def mixF (x y z : Word) : Word := (x &&& y) ||| (~~~x &&& z)

/-- `G(x, y, z) = (x & z) | (y & ~z)` (R130). -/
def mixG (x y z : Word) : Word := (x &&& z) ||| (y &&& ~~~z)

/-- `H(x, y, z) = x ^ y ^ z` (R150). -/
def mixH (x y z : Word) : Word := x ^^^ y ^^^ z

/-- `I(x, y, z) = y ^ (x | ~z)` (R170). -/
def mixI (x y z : Word) : Word := y ^^^ (x ||| ~~~z)

/-! ## Working registers as operands -/

/-- The name of a working register. -/
inductive WReg where
  /-- `a`. -/
  | a
  /-- `b`. -/
  | b
  /-- `c`. -/
  | c
  /-- `d`. -/
  | d
  deriving DecidableEq, Repr

/-- Read a working register. -/
def Working.get (r : Working) : WReg → Word
  | .a => r.a
  | .b => r.b
  | .c => r.c
  | .d => r.d

/-- Write a working register; the other three keep their values. -/
def Working.set (r : Working) (n : WReg) (v : Word) : Working :=
  match n with
  | .a => { r with a := v }
  | .b => { r with b := v }
  | .c => { r with c := v }
  | .d => { r with d := v }

/-- The step operation every step shares (R101): `w <- x +32 rotl32(w +32 mix(x, y, z) +32 X[k] +32 Ki, s)`. The
arguments stand in the order of the step notation of R71. -/
def roundStep (mix : Word → Word → Word → Word) (w x y z : WReg) (k : Fin 16) (s : Nat) (ki : Word)
    (X : MessageWords) (r : Working) : Working :=
  r.set w (r.get x + rotl32 (r.get w + mix (r.get x) (r.get y) (r.get z) + X.get k + ki) s)

/-- Run a step's effect on the transform in progress: only the working registers change; a step presented outside a
transform is refused by name (R60, R67). `i` is the step's index, named in the refusal. Log 3, Log 7. -/
def inTransform (i : BitVec 6) (f : MessageWords → Working → Working) (s : State) : Outcome :=
  match s.transform with
  | some t => .next { s with transform := some { t with regs := f t.x t.regs } }
  | none => .refused (.noTransformInProgress i)

/-! ## Operand decoding of a step index -/

/-- `K[0..63]`, the round constants (R103), round 1. -/
def roundConstants1 : List Word :=
  [0xd76aa478, 0xe8c7b756, 0x242070db, 0xc1bdceee, 0xf57c0faf, 0x4787c62a, 0xa8304613, 0xfd469501,
    0x698098d8, 0x8b44f7af, 0xffff5bb1, 0x895cd7be, 0x6b901122, 0xfd987193, 0xa679438e, 0x49b40821]

/-- `K[0..63]`, the round constants (R103), round 2. -/
def roundConstants2 : List Word :=
  [0xf61e2562, 0xc040b340, 0x265e5a51, 0xe9b6c7aa, 0xd62f105d, 0x02441453, 0xd8a1e681, 0xe7d3fbc8,
    0x21e1cde6, 0xc33707d6, 0xf4d50d87, 0x455a14ed, 0xa9e3e905, 0xfcefa3f8, 0x676f02d9, 0x8d2a4c8a]

/-- `K[0..63]`, the round constants (R103), round 3. -/
def roundConstants3 : List Word :=
  [0xfffa3942, 0x8771f681, 0x6d9d6122, 0xfde5380c, 0xa4beea44, 0x4bdecfa9, 0xf6bb4b60, 0xbebfbc70,
    0x289b7ec6, 0xeaa127fa, 0xd4ef3085, 0x04881d05, 0xd9d4d039, 0xe6db99e5, 0x1fa27cf8, 0xc4ac5665]

/-- `K[0..63]`, the round constants (R103), round 4. -/
def roundConstants4 : List Word :=
  [0xf4292244, 0x432aff97, 0xab9423a7, 0xfc93a039, 0x655b59c3, 0x8f0ccc92, 0xffeff47d, 0x85845dd1,
    0x6fa87e4f, 0xfe2ce6e0, 0xa3014314, 0x4e0811a1, 0xf7537e82, 0xbd3af235, 0x2ad7d2bb, 0xeb86d391]

/-- `K[i]` (R103). -/
def roundConstant (i : BitVec 6) : Word :=
  (roundConstants1 ++ roundConstants2 ++ roundConstants3 ++ roundConstants4).getD i.toNat 0

/-- `S` by round and by position modulo 4 (R104, R66). -/
def rotationRow (r : BitVec 2) : Vector Nat 4 :=
  if r = 0 then #v[7, 12, 17, 22] else if r = 1 then #v[5, 9, 14, 20] else if r = 2 then #v[4, 11, 16, 23]
  else #v[6, 10, 15, 21]

/-- `S[i]`, the rotation amount (R104). -/
def rotationAmount (i : BitVec 6) : Nat :=
  let p := i.extractLsb' 0 2
  (rotationRow (i.extractLsb' 4 2)).get ⟨p.toNat, p.isLt⟩

/-- `KIDX` of round 1 (R105). -/
def wordIndexes1 : Vector (Fin 16) 16 :=
  #v[0, 1, 2, 3, 4, 5, 6, 7, 8, 9, 10, 11, 12, 13, 14, 15]

/-- `KIDX` of round 2 (R105). -/
def wordIndexes2 : Vector (Fin 16) 16 :=
  #v[1, 6, 11, 0, 5, 10, 15, 4, 9, 14, 3, 8, 13, 2, 7, 12]

/-- `KIDX` of round 3 (R105). -/
def wordIndexes3 : Vector (Fin 16) 16 :=
  #v[5, 8, 11, 14, 1, 4, 7, 10, 13, 0, 3, 6, 9, 12, 15, 2]

/-- `KIDX` of round 4 (R105). -/
def wordIndexes4 : Vector (Fin 16) 16 :=
  #v[0, 7, 14, 5, 12, 3, 10, 1, 8, 15, 6, 13, 4, 11, 2, 9]

/-- `KIDX[i]`, the message-word index (R105). -/
def wordIndex (i : BitVec 6) : Fin 16 :=
  let r := i.extractLsb' 4 2
  let p := i.extractLsb' 0 4
  (if r = 0 then wordIndexes1 else if r = 1 then wordIndexes2 else if r = 2 then wordIndexes3 else wordIndexes4).get
    ⟨p.toNat, p.isLt⟩

/-- The round function of a step (R65). -/
def mixOf (r : BitVec 2) : Word → Word → Word → Word :=
  if r = 0 then mixF else if r = 1 then mixG else if r = 2 then mixH else mixI

/-- The roles `(w, x, y, z)` of the working registers, by position modulo 4 (R65). -/
def roles (p : BitVec 2) : WReg × WReg × WReg × WReg :=
  if p = 0 then (.a, .b, .c, .d) else if p = 1 then (.d, .a, .b, .c) else if p = 2 then (.c, .d, .a, .b)
  else (.b, .c, .d, .a)

/-- The step template of R101 with the operands of R65 read from the index and the tables. The 64 steps of the round
files are written out one by one in Round1.lean to Round4.lean; where the two differ the step rule wins (R107). -/
def templateStep (i : BitVec 6) (X : MessageWords) (r : Working) : Working :=
  let (w, x, y, z) := roles (i.extractLsb' 0 2)
  roundStep (mixOf (i.extractLsb' 4 2)) w x y z (wordIndex i) (rotationAmount i) (roundConstant i) X r

end Sys2Proof.Machine
end

