-- ==== Sys2Proof/Machine/Round1.lean ====
section
/-! DEFINITION. Round 1: the steps FF00 to FF15 (43_round1_F.md rules R111 to R126). Each step is written from
its own rule, in the operand order of R71: destination, the three arguments of the round function, message word, rotation
amount, constant. -/

namespace Sys2Proof.Machine

/-- R111: `a <- b +32 rotl32(a +32 F(b, c, d) +32 X[0] +32 0xd76aa478, 7)`. -/
def stepFF00 : MessageWords → Working → Working := roundStep mixF .a .b .c .d 0 7 0xd76aa478

/-- FF00, step 0 (R111). -/
def execFF00 (s : State) : Outcome := inTransform 0 stepFF00 s

/-- R112: `d <- a +32 rotl32(d +32 F(a, b, c) +32 X[1] +32 0xe8c7b756, 12)`. -/
def stepFF01 : MessageWords → Working → Working := roundStep mixF .d .a .b .c 1 12 0xe8c7b756

/-- FF01, step 1 (R112). -/
def execFF01 (s : State) : Outcome := inTransform 1 stepFF01 s

/-- R113: `c <- d +32 rotl32(c +32 F(d, a, b) +32 X[2] +32 0x242070db, 17)`. -/
def stepFF02 : MessageWords → Working → Working := roundStep mixF .c .d .a .b 2 17 0x242070db

/-- FF02, step 2 (R113). -/
def execFF02 (s : State) : Outcome := inTransform 2 stepFF02 s

/-- R114: `b <- c +32 rotl32(b +32 F(c, d, a) +32 X[3] +32 0xc1bdceee, 22)`. -/
def stepFF03 : MessageWords → Working → Working := roundStep mixF .b .c .d .a 3 22 0xc1bdceee

/-- FF03, step 3 (R114). -/
def execFF03 (s : State) : Outcome := inTransform 3 stepFF03 s

/-- R115: `a <- b +32 rotl32(a +32 F(b, c, d) +32 X[4] +32 0xf57c0faf, 7)`. -/
def stepFF04 : MessageWords → Working → Working := roundStep mixF .a .b .c .d 4 7 0xf57c0faf

/-- FF04, step 4 (R115). -/
def execFF04 (s : State) : Outcome := inTransform 4 stepFF04 s

/-- R116: `d <- a +32 rotl32(d +32 F(a, b, c) +32 X[5] +32 0x4787c62a, 12)`. -/
def stepFF05 : MessageWords → Working → Working := roundStep mixF .d .a .b .c 5 12 0x4787c62a

/-- FF05, step 5 (R116). -/
def execFF05 (s : State) : Outcome := inTransform 5 stepFF05 s

/-- R117: `c <- d +32 rotl32(c +32 F(d, a, b) +32 X[6] +32 0xa8304613, 17)`. -/
def stepFF06 : MessageWords → Working → Working := roundStep mixF .c .d .a .b 6 17 0xa8304613

/-- FF06, step 6 (R117). -/
def execFF06 (s : State) : Outcome := inTransform 6 stepFF06 s

/-- R118: `b <- c +32 rotl32(b +32 F(c, d, a) +32 X[7] +32 0xfd469501, 22)`. -/
def stepFF07 : MessageWords → Working → Working := roundStep mixF .b .c .d .a 7 22 0xfd469501

/-- FF07, step 7 (R118). -/
def execFF07 (s : State) : Outcome := inTransform 7 stepFF07 s

/-- R119: `a <- b +32 rotl32(a +32 F(b, c, d) +32 X[8] +32 0x698098d8, 7)`. -/
def stepFF08 : MessageWords → Working → Working := roundStep mixF .a .b .c .d 8 7 0x698098d8

/-- FF08, step 8 (R119). -/
def execFF08 (s : State) : Outcome := inTransform 8 stepFF08 s

/-- R120: `d <- a +32 rotl32(d +32 F(a, b, c) +32 X[9] +32 0x8b44f7af, 12)`. -/
def stepFF09 : MessageWords → Working → Working := roundStep mixF .d .a .b .c 9 12 0x8b44f7af

/-- FF09, step 9 (R120). -/
def execFF09 (s : State) : Outcome := inTransform 9 stepFF09 s

/-- R121: `c <- d +32 rotl32(c +32 F(d, a, b) +32 X[10] +32 0xffff5bb1, 17)`. -/
def stepFF10 : MessageWords → Working → Working := roundStep mixF .c .d .a .b 10 17 0xffff5bb1

/-- FF10, step 10 (R121). -/
def execFF10 (s : State) : Outcome := inTransform 10 stepFF10 s

/-- R122: `b <- c +32 rotl32(b +32 F(c, d, a) +32 X[11] +32 0x895cd7be, 22)`. -/
def stepFF11 : MessageWords → Working → Working := roundStep mixF .b .c .d .a 11 22 0x895cd7be

/-- FF11, step 11 (R122). -/
def execFF11 (s : State) : Outcome := inTransform 11 stepFF11 s

/-- R123: `a <- b +32 rotl32(a +32 F(b, c, d) +32 X[12] +32 0x6b901122, 7)`. -/
def stepFF12 : MessageWords → Working → Working := roundStep mixF .a .b .c .d 12 7 0x6b901122

/-- FF12, step 12 (R123). -/
def execFF12 (s : State) : Outcome := inTransform 12 stepFF12 s

/-- R124: `d <- a +32 rotl32(d +32 F(a, b, c) +32 X[13] +32 0xfd987193, 12)`. -/
def stepFF13 : MessageWords → Working → Working := roundStep mixF .d .a .b .c 13 12 0xfd987193

/-- FF13, step 13 (R124). -/
def execFF13 (s : State) : Outcome := inTransform 13 stepFF13 s

/-- R125: `c <- d +32 rotl32(c +32 F(d, a, b) +32 X[14] +32 0xa679438e, 17)`. -/
def stepFF14 : MessageWords → Working → Working := roundStep mixF .c .d .a .b 14 17 0xa679438e

/-- FF14, step 14 (R125). -/
def execFF14 (s : State) : Outcome := inTransform 14 stepFF14 s

/-- R126: `b <- c +32 rotl32(b +32 F(c, d, a) +32 X[15] +32 0x49b40821, 22)`. -/
def stepFF15 : MessageWords → Working → Working := roundStep mixF .b .c .d .a 15 22 0x49b40821

/-- FF15, step 15 (R126). -/
def execFF15 (s : State) : Outcome := inTransform 15 stepFF15 s

/-- The sixteen steps of round 1, ascending (R28, R100). -/
def round1Steps : List (MessageWords → Working → Working) :=
  [stepFF00, stepFF01, stepFF02, stepFF03, stepFF04, stepFF05, stepFF06, stepFF07,
    stepFF08, stepFF09, stepFF10, stepFF11, stepFF12, stepFF13, stepFF14, stepFF15]

end Sys2Proof.Machine
end

