-- ==== Sys2Proof/Machine/Round2.lean ====
section
/-! DEFINITION. Round 2: the steps GG16 to GG31 (44_round2_G.md rules R131 to R146). Each step is written from
its own rule, in the operand order of R71: destination, the three arguments of the round function, message word, rotation
amount, constant. -/

namespace Sys2Proof.Machine

/-- R131: `a <- b +32 rotl32(a +32 G(b, c, d) +32 X[1] +32 0xf61e2562, 5)`. -/
def stepGG16 : MessageWords → Working → Working := roundStep mixG .a .b .c .d 1 5 0xf61e2562

/-- GG16, step 16 (R131). -/
def execGG16 (s : State) : Outcome := inTransform 16 stepGG16 s

/-- R132: `d <- a +32 rotl32(d +32 G(a, b, c) +32 X[6] +32 0xc040b340, 9)`. -/
def stepGG17 : MessageWords → Working → Working := roundStep mixG .d .a .b .c 6 9 0xc040b340

/-- GG17, step 17 (R132). -/
def execGG17 (s : State) : Outcome := inTransform 17 stepGG17 s

/-- R133: `c <- d +32 rotl32(c +32 G(d, a, b) +32 X[11] +32 0x265e5a51, 14)`. -/
def stepGG18 : MessageWords → Working → Working := roundStep mixG .c .d .a .b 11 14 0x265e5a51

/-- GG18, step 18 (R133). -/
def execGG18 (s : State) : Outcome := inTransform 18 stepGG18 s

/-- R134: `b <- c +32 rotl32(b +32 G(c, d, a) +32 X[0] +32 0xe9b6c7aa, 20)`. -/
def stepGG19 : MessageWords → Working → Working := roundStep mixG .b .c .d .a 0 20 0xe9b6c7aa

/-- GG19, step 19 (R134). -/
def execGG19 (s : State) : Outcome := inTransform 19 stepGG19 s

/-- R135: `a <- b +32 rotl32(a +32 G(b, c, d) +32 X[5] +32 0xd62f105d, 5)`. -/
def stepGG20 : MessageWords → Working → Working := roundStep mixG .a .b .c .d 5 5 0xd62f105d

/-- GG20, step 20 (R135). -/
def execGG20 (s : State) : Outcome := inTransform 20 stepGG20 s

/-- R136: `d <- a +32 rotl32(d +32 G(a, b, c) +32 X[10] +32 0x02441453, 9)`. -/
def stepGG21 : MessageWords → Working → Working := roundStep mixG .d .a .b .c 10 9 0x02441453

/-- GG21, step 21 (R136). -/
def execGG21 (s : State) : Outcome := inTransform 21 stepGG21 s

/-- R137: `c <- d +32 rotl32(c +32 G(d, a, b) +32 X[15] +32 0xd8a1e681, 14)`. -/
def stepGG22 : MessageWords → Working → Working := roundStep mixG .c .d .a .b 15 14 0xd8a1e681

/-- GG22, step 22 (R137). -/
def execGG22 (s : State) : Outcome := inTransform 22 stepGG22 s

/-- R138: `b <- c +32 rotl32(b +32 G(c, d, a) +32 X[4] +32 0xe7d3fbc8, 20)`. -/
def stepGG23 : MessageWords → Working → Working := roundStep mixG .b .c .d .a 4 20 0xe7d3fbc8

/-- GG23, step 23 (R138). -/
def execGG23 (s : State) : Outcome := inTransform 23 stepGG23 s

/-- R139: `a <- b +32 rotl32(a +32 G(b, c, d) +32 X[9] +32 0x21e1cde6, 5)`. -/
def stepGG24 : MessageWords → Working → Working := roundStep mixG .a .b .c .d 9 5 0x21e1cde6

/-- GG24, step 24 (R139). -/
def execGG24 (s : State) : Outcome := inTransform 24 stepGG24 s

/-- R140: `d <- a +32 rotl32(d +32 G(a, b, c) +32 X[14] +32 0xc33707d6, 9)`. -/
def stepGG25 : MessageWords → Working → Working := roundStep mixG .d .a .b .c 14 9 0xc33707d6

/-- GG25, step 25 (R140). -/
def execGG25 (s : State) : Outcome := inTransform 25 stepGG25 s

/-- R141: `c <- d +32 rotl32(c +32 G(d, a, b) +32 X[3] +32 0xf4d50d87, 14)`. -/
def stepGG26 : MessageWords → Working → Working := roundStep mixG .c .d .a .b 3 14 0xf4d50d87

/-- GG26, step 26 (R141). -/
def execGG26 (s : State) : Outcome := inTransform 26 stepGG26 s

/-- R142: `b <- c +32 rotl32(b +32 G(c, d, a) +32 X[8] +32 0x455a14ed, 20)`. -/
def stepGG27 : MessageWords → Working → Working := roundStep mixG .b .c .d .a 8 20 0x455a14ed

/-- GG27, step 27 (R142). -/
def execGG27 (s : State) : Outcome := inTransform 27 stepGG27 s

/-- R143: `a <- b +32 rotl32(a +32 G(b, c, d) +32 X[13] +32 0xa9e3e905, 5)`. -/
def stepGG28 : MessageWords → Working → Working := roundStep mixG .a .b .c .d 13 5 0xa9e3e905

/-- GG28, step 28 (R143). -/
def execGG28 (s : State) : Outcome := inTransform 28 stepGG28 s

/-- R144: `d <- a +32 rotl32(d +32 G(a, b, c) +32 X[2] +32 0xfcefa3f8, 9)`. -/
def stepGG29 : MessageWords → Working → Working := roundStep mixG .d .a .b .c 2 9 0xfcefa3f8

/-- GG29, step 29 (R144). -/
def execGG29 (s : State) : Outcome := inTransform 29 stepGG29 s

/-- R145: `c <- d +32 rotl32(c +32 G(d, a, b) +32 X[7] +32 0x676f02d9, 14)`. -/
def stepGG30 : MessageWords → Working → Working := roundStep mixG .c .d .a .b 7 14 0x676f02d9

/-- GG30, step 30 (R145). -/
def execGG30 (s : State) : Outcome := inTransform 30 stepGG30 s

/-- R146: `b <- c +32 rotl32(b +32 G(c, d, a) +32 X[12] +32 0x8d2a4c8a, 20)`. -/
def stepGG31 : MessageWords → Working → Working := roundStep mixG .b .c .d .a 12 20 0x8d2a4c8a

/-- GG31, step 31 (R146). -/
def execGG31 (s : State) : Outcome := inTransform 31 stepGG31 s

/-- The sixteen steps of round 2, ascending (R28, R100). -/
def round2Steps : List (MessageWords → Working → Working) :=
  [stepGG16, stepGG17, stepGG18, stepGG19, stepGG20, stepGG21, stepGG22, stepGG23,
    stepGG24, stepGG25, stepGG26, stepGG27, stepGG28, stepGG29, stepGG30, stepGG31]

end Sys2Proof.Machine
end

