-- ==== Sys2Proof/Machine/Round3.lean ====
section
/-! DEFINITION. Round 3: the steps HH32 to HH47 (45_round3_H.md rules R151 to R166). Each step is written from
its own rule, in the operand order of R71: destination, the three arguments of the round function, message word, rotation
amount, constant. -/

namespace Sys2Proof.Machine

/-- R151: `a <- b +32 rotl32(a +32 H(b, c, d) +32 X[5] +32 0xfffa3942, 4)`. -/
def stepHH32 : MessageWords → Working → Working := roundStep mixH .a .b .c .d 5 4 0xfffa3942

/-- HH32, step 32 (R151). -/
def execHH32 (s : State) : Outcome := inTransform 32 stepHH32 s

/-- R152: `d <- a +32 rotl32(d +32 H(a, b, c) +32 X[8] +32 0x8771f681, 11)`. -/
def stepHH33 : MessageWords → Working → Working := roundStep mixH .d .a .b .c 8 11 0x8771f681

/-- HH33, step 33 (R152). -/
def execHH33 (s : State) : Outcome := inTransform 33 stepHH33 s

/-- R153: `c <- d +32 rotl32(c +32 H(d, a, b) +32 X[11] +32 0x6d9d6122, 16)`. -/
def stepHH34 : MessageWords → Working → Working := roundStep mixH .c .d .a .b 11 16 0x6d9d6122

/-- HH34, step 34 (R153). -/
def execHH34 (s : State) : Outcome := inTransform 34 stepHH34 s

/-- R154: `b <- c +32 rotl32(b +32 H(c, d, a) +32 X[14] +32 0xfde5380c, 23)`. -/
def stepHH35 : MessageWords → Working → Working := roundStep mixH .b .c .d .a 14 23 0xfde5380c

/-- HH35, step 35 (R154). -/
def execHH35 (s : State) : Outcome := inTransform 35 stepHH35 s

/-- R155: `a <- b +32 rotl32(a +32 H(b, c, d) +32 X[1] +32 0xa4beea44, 4)`. -/
def stepHH36 : MessageWords → Working → Working := roundStep mixH .a .b .c .d 1 4 0xa4beea44

/-- HH36, step 36 (R155). -/
def execHH36 (s : State) : Outcome := inTransform 36 stepHH36 s

/-- R156: `d <- a +32 rotl32(d +32 H(a, b, c) +32 X[4] +32 0x4bdecfa9, 11)`. -/
def stepHH37 : MessageWords → Working → Working := roundStep mixH .d .a .b .c 4 11 0x4bdecfa9

/-- HH37, step 37 (R156). -/
def execHH37 (s : State) : Outcome := inTransform 37 stepHH37 s

/-- R157: `c <- d +32 rotl32(c +32 H(d, a, b) +32 X[7] +32 0xf6bb4b60, 16)`. -/
def stepHH38 : MessageWords → Working → Working := roundStep mixH .c .d .a .b 7 16 0xf6bb4b60

/-- HH38, step 38 (R157). -/
def execHH38 (s : State) : Outcome := inTransform 38 stepHH38 s

/-- R158: `b <- c +32 rotl32(b +32 H(c, d, a) +32 X[10] +32 0xbebfbc70, 23)`. -/
def stepHH39 : MessageWords → Working → Working := roundStep mixH .b .c .d .a 10 23 0xbebfbc70

/-- HH39, step 39 (R158). -/
def execHH39 (s : State) : Outcome := inTransform 39 stepHH39 s

/-- R159: `a <- b +32 rotl32(a +32 H(b, c, d) +32 X[13] +32 0x289b7ec6, 4)`. -/
def stepHH40 : MessageWords → Working → Working := roundStep mixH .a .b .c .d 13 4 0x289b7ec6

/-- HH40, step 40 (R159). -/
def execHH40 (s : State) : Outcome := inTransform 40 stepHH40 s

/-- R160: `d <- a +32 rotl32(d +32 H(a, b, c) +32 X[0] +32 0xeaa127fa, 11)`. -/
def stepHH41 : MessageWords → Working → Working := roundStep mixH .d .a .b .c 0 11 0xeaa127fa

/-- HH41, step 41 (R160). -/
def execHH41 (s : State) : Outcome := inTransform 41 stepHH41 s

/-- R161: `c <- d +32 rotl32(c +32 H(d, a, b) +32 X[3] +32 0xd4ef3085, 16)`. -/
def stepHH42 : MessageWords → Working → Working := roundStep mixH .c .d .a .b 3 16 0xd4ef3085

/-- HH42, step 42 (R161). -/
def execHH42 (s : State) : Outcome := inTransform 42 stepHH42 s

/-- R162: `b <- c +32 rotl32(b +32 H(c, d, a) +32 X[6] +32 0x04881d05, 23)`. -/
def stepHH43 : MessageWords → Working → Working := roundStep mixH .b .c .d .a 6 23 0x04881d05

/-- HH43, step 43 (R162). -/
def execHH43 (s : State) : Outcome := inTransform 43 stepHH43 s

/-- R163: `a <- b +32 rotl32(a +32 H(b, c, d) +32 X[9] +32 0xd9d4d039, 4)`. -/
def stepHH44 : MessageWords → Working → Working := roundStep mixH .a .b .c .d 9 4 0xd9d4d039

/-- HH44, step 44 (R163). -/
def execHH44 (s : State) : Outcome := inTransform 44 stepHH44 s

/-- R164: `d <- a +32 rotl32(d +32 H(a, b, c) +32 X[12] +32 0xe6db99e5, 11)`. -/
def stepHH45 : MessageWords → Working → Working := roundStep mixH .d .a .b .c 12 11 0xe6db99e5

/-- HH45, step 45 (R164). -/
def execHH45 (s : State) : Outcome := inTransform 45 stepHH45 s

/-- R165: `c <- d +32 rotl32(c +32 H(d, a, b) +32 X[15] +32 0x1fa27cf8, 16)`. -/
def stepHH46 : MessageWords → Working → Working := roundStep mixH .c .d .a .b 15 16 0x1fa27cf8

/-- HH46, step 46 (R165). -/
def execHH46 (s : State) : Outcome := inTransform 46 stepHH46 s

/-- R166: `b <- c +32 rotl32(b +32 H(c, d, a) +32 X[2] +32 0xc4ac5665, 23)`. -/
def stepHH47 : MessageWords → Working → Working := roundStep mixH .b .c .d .a 2 23 0xc4ac5665

/-- HH47, step 47 (R166). -/
def execHH47 (s : State) : Outcome := inTransform 47 stepHH47 s

/-- The sixteen steps of round 3, ascending (R28, R100). -/
def round3Steps : List (MessageWords → Working → Working) :=
  [stepHH32, stepHH33, stepHH34, stepHH35, stepHH36, stepHH37, stepHH38, stepHH39,
    stepHH40, stepHH41, stepHH42, stepHH43, stepHH44, stepHH45, stepHH46, stepHH47]

end Sys2Proof.Machine
end

