-- ==== Sys2Proof/Machine/Round4.lean ====
section
/-! DEFINITION. Round 4: the steps II48 to II63 (46_round4_I.md rules R171 to R186). Each step is written from
its own rule, in the operand order of R71: destination, the three arguments of the round function, message word, rotation
amount, constant. -/

namespace Sys2Proof.Machine

/-- R171: `a <- b +32 rotl32(a +32 I(b, c, d) +32 X[0] +32 0xf4292244, 6)`. -/
def stepII48 : MessageWords → Working → Working := roundStep mixI .a .b .c .d 0 6 0xf4292244

/-- II48, step 48 (R171). -/
def execII48 (s : State) : Outcome := inTransform 48 stepII48 s

/-- R172: `d <- a +32 rotl32(d +32 I(a, b, c) +32 X[7] +32 0x432aff97, 10)`. -/
def stepII49 : MessageWords → Working → Working := roundStep mixI .d .a .b .c 7 10 0x432aff97

/-- II49, step 49 (R172). -/
def execII49 (s : State) : Outcome := inTransform 49 stepII49 s

/-- R173: `c <- d +32 rotl32(c +32 I(d, a, b) +32 X[14] +32 0xab9423a7, 15)`. -/
def stepII50 : MessageWords → Working → Working := roundStep mixI .c .d .a .b 14 15 0xab9423a7

/-- II50, step 50 (R173). -/
def execII50 (s : State) : Outcome := inTransform 50 stepII50 s

/-- R174: `b <- c +32 rotl32(b +32 I(c, d, a) +32 X[5] +32 0xfc93a039, 21)`. -/
def stepII51 : MessageWords → Working → Working := roundStep mixI .b .c .d .a 5 21 0xfc93a039

/-- II51, step 51 (R174). -/
def execII51 (s : State) : Outcome := inTransform 51 stepII51 s

/-- R175: `a <- b +32 rotl32(a +32 I(b, c, d) +32 X[12] +32 0x655b59c3, 6)`. -/
def stepII52 : MessageWords → Working → Working := roundStep mixI .a .b .c .d 12 6 0x655b59c3

/-- II52, step 52 (R175). -/
def execII52 (s : State) : Outcome := inTransform 52 stepII52 s

/-- R176: `d <- a +32 rotl32(d +32 I(a, b, c) +32 X[3] +32 0x8f0ccc92, 10)`. -/
def stepII53 : MessageWords → Working → Working := roundStep mixI .d .a .b .c 3 10 0x8f0ccc92

/-- II53, step 53 (R176). -/
def execII53 (s : State) : Outcome := inTransform 53 stepII53 s

/-- R177: `c <- d +32 rotl32(c +32 I(d, a, b) +32 X[10] +32 0xffeff47d, 15)`. -/
def stepII54 : MessageWords → Working → Working := roundStep mixI .c .d .a .b 10 15 0xffeff47d

/-- II54, step 54 (R177). -/
def execII54 (s : State) : Outcome := inTransform 54 stepII54 s

/-- R178: `b <- c +32 rotl32(b +32 I(c, d, a) +32 X[1] +32 0x85845dd1, 21)`. -/
def stepII55 : MessageWords → Working → Working := roundStep mixI .b .c .d .a 1 21 0x85845dd1

/-- II55, step 55 (R178). -/
def execII55 (s : State) : Outcome := inTransform 55 stepII55 s

/-- R179: `a <- b +32 rotl32(a +32 I(b, c, d) +32 X[8] +32 0x6fa87e4f, 6)`. -/
def stepII56 : MessageWords → Working → Working := roundStep mixI .a .b .c .d 8 6 0x6fa87e4f

/-- II56, step 56 (R179). -/
def execII56 (s : State) : Outcome := inTransform 56 stepII56 s

/-- R180: `d <- a +32 rotl32(d +32 I(a, b, c) +32 X[15] +32 0xfe2ce6e0, 10)`. -/
def stepII57 : MessageWords → Working → Working := roundStep mixI .d .a .b .c 15 10 0xfe2ce6e0

/-- II57, step 57 (R180). -/
def execII57 (s : State) : Outcome := inTransform 57 stepII57 s

/-- R181: `c <- d +32 rotl32(c +32 I(d, a, b) +32 X[6] +32 0xa3014314, 15)`. -/
def stepII58 : MessageWords → Working → Working := roundStep mixI .c .d .a .b 6 15 0xa3014314

/-- II58, step 58 (R181). -/
def execII58 (s : State) : Outcome := inTransform 58 stepII58 s

/-- R182: `b <- c +32 rotl32(b +32 I(c, d, a) +32 X[13] +32 0x4e0811a1, 21)`. -/
def stepII59 : MessageWords → Working → Working := roundStep mixI .b .c .d .a 13 21 0x4e0811a1

/-- II59, step 59 (R182). -/
def execII59 (s : State) : Outcome := inTransform 59 stepII59 s

/-- R183: `a <- b +32 rotl32(a +32 I(b, c, d) +32 X[4] +32 0xf7537e82, 6)`. -/
def stepII60 : MessageWords → Working → Working := roundStep mixI .a .b .c .d 4 6 0xf7537e82

/-- II60, step 60 (R183). -/
def execII60 (s : State) : Outcome := inTransform 60 stepII60 s

/-- R184: `d <- a +32 rotl32(d +32 I(a, b, c) +32 X[11] +32 0xbd3af235, 10)`. -/
def stepII61 : MessageWords → Working → Working := roundStep mixI .d .a .b .c 11 10 0xbd3af235

/-- II61, step 61 (R184). -/
def execII61 (s : State) : Outcome := inTransform 61 stepII61 s

/-- R185: `c <- d +32 rotl32(c +32 I(d, a, b) +32 X[2] +32 0x2ad7d2bb, 15)`. -/
def stepII62 : MessageWords → Working → Working := roundStep mixI .c .d .a .b 2 15 0x2ad7d2bb

/-- II62, step 62 (R185). -/
def execII62 (s : State) : Outcome := inTransform 62 stepII62 s

/-- R186: `b <- c +32 rotl32(b +32 I(c, d, a) +32 X[9] +32 0xeb86d391, 21)`. -/
def stepII63 : MessageWords → Working → Working := roundStep mixI .b .c .d .a 9 21 0xeb86d391

/-- II63, step 63 (R186). -/
def execII63 (s : State) : Outcome := inTransform 63 stepII63 s

/-- The sixteen steps of round 4, ascending (R28, R100). -/
def round4Steps : List (MessageWords → Working → Working) :=
  [stepII48, stepII49, stepII50, stepII51, stepII52, stepII53, stepII54, stepII55,
    stepII56, stepII57, stepII58, stepII59, stepII60, stepII61, stepII62, stepII63]

end Sys2Proof.Machine
end

