-- ==== Sys2Proof/Machine/Transform.lean ====
section
/-! DEFINITION. The block transform (42_block_transform.md rules R100, R102), and the sequencer that shows it one step at
a time (10_state.md rule R28). -/

namespace Sys2Proof.Machine

/-- The 64 steps in ascending order (R100). -/
def allSteps : List (MessageWords → Working → Working) := round1Steps ++ round2Steps ++ round3Steps ++ round4Steps

/-- Run the 64 steps, one after another (R28, R100). -/
def runSteps (x : MessageWords) (r : Working) : Working := allSteps.foldl (fun r f => f x r) r

/-- Seed the working registers from the hash state (R21, R100). -/
def seedWorking (h : Hash) : Working := ⟨h.h0, h.h1, h.h2, h.h3⟩

/-- Add the working registers into the state as it was on entry (R100). -/
def addBack (h : Hash) (r : Working) : Hash := ⟨h.h0 + r.a, h.h1 + r.b, h.h2 + r.c, h.h3 + r.d⟩

/-- `Transform(s, B)`: a pure function of the hash state and a 64-byte block (R100, R102). It is irreducible so that no
proof unfolds its 64 steps by accident; `unfold transform` still does. -/
@[irreducible] def transform (h : Hash) (b : Block) : Hash := addBack h (runSteps (messageWords b) (seedWorking h))

/-! ## The sequencer -/

/-- The transform's locals when it has been seeded and its next step is step `i` (R21, R22, R28). -/
def seededRun (h : Hash) (b : Block) (i : BitVec 6) : TransformRun := ⟨seedWorking h, messageWords b, i⟩

/-- Start a transform of block `b` on the hash state: decode the words, seed the registers, go to step 0 (R28, R100). -/
def beginTransform (b : Block) (s : State) : State := { s with transform := some (seededRun s.hash b 0) }

/-- After a step: the index advances by exactly 1; after step 63 the working registers are added into the hash state and
the transform's locals are gone (R28, R100). -/
def advanceSequencer (s : State) : State :=
  match s.transform with
  | none => s
  | some t =>
    if t.i = 63 then { s with hash := addBack s.hash t.regs, transform := none }
    else { s with transform := some { t with i := t.i + 1 } }

end Sys2Proof.Machine
end

