-- ==== Sys2Proof/Machine/Update.lean ====
section
/-! DEFINITION. The update datapath `UpdateCore`, which UPDATE and FINAL share (41_update.md rules R86 to R89). -/

namespace Sys2Proof.Machine

/-- The direct path: transform every further full block straight from the payload; the answer is the new hash state and
the tail (R47, R86). `blocks` is the number of full blocks left, so the loop ends with fewer than 64 bytes. -/
def directBlocks : (blocks : Nat) → Hash → List Byte → Hash × List Byte
  | 0, h, rest => (h, rest)
  | n + 1, h, rest =>
    if hb : 64 ≤ rest.length then directBlocks n (transform h (Block.ofList rest hb)) (rest.drop 64) else (h, rest)

/-- The tail the direct path leaves is shorter than a block (R42, R86). -/
theorem directBlocks_tail_lt (n : Nat) (h : Hash) (rest : List Byte) (hn : rest.length < 64 * (n + 1)) :
    (directBlocks n h rest).2.length < 64 := by
  induction n generalizing h rest with
  | zero => simpa [directBlocks] using hn
  | succ n ih =>
    unfold directBlocks
    split
    · exact ih _ _ (by rw [List.length_drop]; omega)
    · simpa using ‹¬64 ≤ rest.length›

/-- The direct path over all full blocks of what follows the flush (R86, R89). -/
def directPath (h : Hash) (rest : List Byte) : Hash × List Byte := directBlocks (rest.length / 64) h rest

/-- The tail of the direct path fits the buffer (R42). -/
theorem directPath_tail_lt (h : Hash) (rest : List Byte) : (directPath h rest).2.length < 64 :=
  directBlocks_tail_lt _ h rest (by omega)

/-- The bit count after `n` more message bytes: `(bit_count + 8 x n) mod 2^64`, `8 x n` formed as a natural number (R9,
R87). -/
def addBits (c : Count) (n : Nat) : Count := c + BitVec.ofNat 64 (8 * n)

/-- The short branch (`n < deficit`): append the payload, run no transform (R86, R88). -/
def updateShort (data : List Byte) (s : State) (h : fillLevel s.bitCount + data.length ≤ 64) : State :=
  { s with
    bitCount := addBits s.bitCount data.length
    buffer := memWrite s.buffer (fillLevel s.bitCount) data h }

/-- The buffer filled to 64 bytes with the first `deficit` payload bytes (R86). -/
def filledBuffer (data : List Byte) (s : State) : Memory :=
  memWrite s.buffer (fillLevel s.bitCount) (data.take (64 - fillLevel s.bitCount))
    (by have := fillLevel_lt s.bitCount; rw [List.length_take]; omega)

/-- The hash state and the tail after the flush and the direct path (R86, R89). -/
def flushedPath (data : List Byte) (s : State) : Hash × List Byte :=
  directPath (transform s.hash (bufferBlock (filledBuffer data s))) (data.drop (64 - fillLevel s.bitCount))

/-- The tail fits the buffer at address 0 (R42). -/
theorem flushedPath_tail_fits (data : List Byte) (s : State) : 0 + (flushedPath data s).2.length ≤ 64 := by
  have := directPath_tail_lt (transform s.hash (bufferBlock (filledBuffer data s)))
    (data.drop (64 - fillLevel s.bitCount))
  unfold flushedPath
  omega

/-- The long branch (`n >= deficit`): fill and flush the buffer, take the direct path, buffer the tail (R86, R89). -/
def updateLong (data : List Byte) (s : State) : State :=
  { s with
    hash := (flushedPath data s).1
    bitCount := addBits s.bitCount data.length
    buffer := memWrite (filledBuffer data s) 0 (flushedPath data s).2 (flushedPath_tail_fits data s) }

/-- `UpdateCore(data)`: the comparison with the deficit is strict, and the fill level is read before the increment (R86). -/
def updateCore (data : List Byte) (s : State) : State :=
  if h : data.length < 64 - fillLevel s.bitCount then updateShort data s (by omega) else updateLong data s

end Sys2Proof.Machine
end

