-- ==== Sys2Proof/Machine/Commands.lean ====
section
/-! DEFINITION. The meanings of the four command words: INIT (40_initialize.md rule R80), UPDATE (41_update.md rule R85),
FINAL (47_final.md rule R190) and the reserved word (60_exceptions.md rule R214). Every command first meets the sticky
fault (R213), then its own check, in the order of R217. -/

namespace Sys2Proof.Machine

/-- The four initial words, in index order (R20, R80). -/
def initHash : Hash := ⟨0x67452301, 0xefcdab89, 0x98badcfe, 0x10325476⟩

/-- INIT's effect: the buffer, `digest`, `fault` and `cause` are unchanged (R80). -/
def initContext (s : State) : State :=
  { s with hash := initHash, bitCount := 0, live := true, result := .nothing }

/-- INIT (R80, R81): legal whatever `live` is. -/
def execInit (s : State) : Outcome :=
  if s.fault then .next (refuseCommand s) else .next (initContext s)

/-- UPDATE's effect: the datapath runs and nothing is returned (R85). -/
def updateContext (data : List Byte) (s : State) : State := { updateCore data s with result := .nothing }

/-- UPDATE (R85): the lifecycle check comes before any payload byte is used. -/
def execUpdate (data : List Byte) (s : State) : Outcome :=
  if s.fault then .next (refuseCommand s)
  else if s.live then .next (updateContext data s)
  else .next (raiseFault .misuseUpdate s)

/-- `padlen`: the one value in 1 to 64 that brings the fill level to 56 modulo 64 (R190, R192). -/
def padLen (index : Nat) : Nat := if index < 56 then 56 - index else 120 - index

/-- The padding: `0x80`, then `padlen - 1` zero bytes (R192). -/
def padding (index : Nat) : List Byte := 0x80 :: List.replicate (padLen index - 1) 0

/-- FINAL's steps 1 to 3: latch the length before padding, then feed the padding and the latched trailer through the
datapath (R190, R191, R193). -/
def padAndFlush (s : State) : State :=
  updateCore (encode64LE s.bitCount) (updateCore (padding (fillLevel s.bitCount)) s)

/-- FINAL's steps 4 and 5: the digest goes to the register and to the host, and every field of the context is zeroed
(R194, R195, R196). -/
def finishDigest (s : State) : State :=
  { s with
    hash := ⟨0, 0, 0, 0⟩
    bitCount := 0
    buffer := []
    live := false
    digest := digestOf s.hash
    result := .digest (digestOf s.hash) }

/-- FINAL (R190): the lifecycle check comes first. -/
def execFinal (s : State) : Outcome :=
  if s.fault then .next (refuseCommand s)
  else if s.live then .next (finishDigest (padAndFlush s))
  else .next (raiseFault .misuseFinal s)

/-- The reserved command word: `Fault(3)` whatever `live` is (R67, R214). -/
def execReserved3 (s : State) : Outcome :=
  if s.fault then .next (refuseCommand s) else .next (raiseFault .illegalOp s)

end Sys2Proof.Machine
end

