-- ==== Sys2Proof/Machine/Fetch.lean ====
section
/-! DEFINITION. What the engine does next: the fixed order of checks of 60_exceptions.md rule R217 at the level of host
actions, and where the next instruction comes from (the host's next command, or the sequencer's step index). -/

namespace Sys2Proof.Machine

/-- What one step of the machine takes up. -/
inductive NextMove where
  /-- No action is pending and no transform is in progress: the engine is idle (R224). -/
  | idle
  /-- The host resets the engine. -/
  | reset (rest : List HostAction)
  /-- The sequencer presents the step index of the transform in progress (R28). -/
  | step (i : BitVec 6)
  /-- The host reads `STATUS`. -/
  | readStatus (rest : List HostAction)
  /-- The host reads `digest`. -/
  | readDigest (rest : List HostAction)
  /-- The host issues a command. -/
  | command (w : CommandWords) (rest : List HostAction)
  deriving DecidableEq, Repr

/-- Reset comes first (R217, R230); while a transform is in progress nothing else is taken up (R236); then the host's
actions in the order it issues them (R48). Log 14, Log 15, Log 17. -/
def nextMove (s : State) : NextMove :=
  match s.pending with
  | .reset _ :: rest => .reset rest
  | [] =>
    match s.transform with
    | some t => .step t.i
    | none => .idle
  | .readStatus :: rest =>
    match s.transform with
    | some t => .step t.i
    | none => .readStatus rest
  | .readDigest :: rest =>
    match s.transform with
    | some t => .step t.i
    | none => .readDigest rest
  | .command w :: rest =>
    match s.transform with
    | some t => .step t.i
    | none => .command w rest

/-- The state with an action taken from the list. -/
def takePending (rest : List HostAction) (s : State) : State := { s with pending := rest }

/-- Command words the decoder rejects: while `fault = 1` they are refused like every command, before decoding (R213,
R219); otherwise they are no command of the format and the model refuses them by name. Log 6, Log 8. -/
def rejectWords (e : DecodeError) (s : State) : Outcome :=
  if s.fault then .next (refuseCommand s) else .refused (.undecodable e)

/-- What follows a step of the transform: the sequencer advances (R28). -/
def afterStep : Outcome → Outcome
  | .next s => .next (advanceSequencer s)
  | .fault r => .fault r
  | .refused r => .refused r

/-- The pending actions without the resets at their head. -/
def dropResets : List HostAction → List HostAction
  | .reset _ :: rest => dropResets rest
  | .readStatus :: rest => .readStatus :: rest
  | .readDigest :: rest => .readDigest :: rest
  | .command w :: rest => .command w :: rest
  | [] => []

/-- The state in which the next step takes up the command `w`: it is the host's next action, and no transform is in
progress. Log 5. -/
def placeCommand (w : CommandWords) (s : State) : State :=
  { s with transform := none, pending := .command w :: s.pending }

/-- The locals of a transform whose next step is step `i`: those of the transform in progress, or those seeded from the
hash state and the buffer. Log 4. -/
def runAt (i : BitVec 6) (s : State) : TransformRun :=
  match s.transform with
  | some t => { t with i := i }
  | none => seededRun s.hash (bufferBlock s.buffer) i

/-- The state in which the next step runs step `i`: a transform is in progress at that index and no reset comes first.
Log 4. -/
def placeStep (i : BitVec 6) (s : State) : State :=
  { s with transform := some (runAt i s), pending := dropResets s.pending }

end Sys2Proof.Machine
end

