-- ==== Sys2Proof/Machine/Step.lean ====
section
/-! DEFINITION. One step of the machine: one host action, whole (70_reset_and_hazards.md rule R236), or one step of a block
transform in progress (10_state.md rule R28). -/

namespace Sys2Proof.Machine

/-- Decode the host's command words and run the command; `s` is the state with the action taken. -/
def runCommand (w : CommandWords) (s : State) : Host.Outcome State Fault Refusal :=
  match decode (.command w) with
  | .ok i => exec i s
  | .error e => rejectWords e s

/-- One step of the engine. -/
def step (s : State) : Host.Outcome State Fault Refusal :=
  match nextMove s with
  | .idle => .next s
  | .reset rest => .next (applyReset rest)
  | .step i => afterStep (exec (decodeStep i) s)
  | .readStatus rest => .next (hostReadStatus (takePending rest s))
  | .readDigest rest => .next (hostReadDigest (takePending rest s))
  | .command w rest => runCommand w (takePending rest s)

/-- The state in which the next step runs the opcode-table word `w` of a row of `nbits` bits. Log 1, Log 4, Log 5. -/
def State.withFetchWord (s : State) (nbits w : Nat) : State :=
  match tableWords nbits w with
  | none => s
  | some (.command c) => placeCommand c s
  | some (.step i) => placeStep i s

end Sys2Proof.Machine
end

