-- ==== Sys2Proof/Machine/System.lean ====
section
/-! DEFINITION. Several engines (20_memory.md rule R53, 60_exceptions.md rule R222): independent instances that share
nothing. Which one steps next is the caller's choice. Log 12. -/

namespace Sys2Proof.Machine

/-- `n` engine instances, each with its own state (R53). -/
abbrev Engines (n : Nat) := Vector State n

/-- Every instance starts by its own reset (R222). -/
def Engines.reset (n : Nat) : Engines n := Vector.replicate n State.reset

/-- Instance `k` takes one step; no other instance takes part (R53, R222). -/
def Engines.step {n : Nat} (k : Fin n) (e : Engines n) : Host.Outcome (Engines n) Fault Refusal :=
  match Sys2Proof.Machine.step (e.get k) with
  | .next s => .next (e.set k s)
  | .fault r => .fault r
  | .refused r => .refused r

/-- The system at the default `N_ENGINES` (R6). -/
abbrev System := Engines Config.nEngines

end Sys2Proof.Machine
end

