-- ==== Sys2Proof/Safety.lean ====
section
/-! DEFINITION. The terms that claims about the engine are stated in: runs, the context invariant (10_state.md rule R27),
the valid bytes of the buffer and the states that agree on them (R25, R26), the closed form of a digest (47_final.md rule
R197), and the rotating form of the transform (42_block_transform.md rule R108). No step of the machine uses this file. -/

namespace Sys2Proof.Safety

open Sys2Proof.Machine

/-! ## Runs -/

/-- `k` steps of the machine, stopping at the first stop. -/
def iterate : Nat → State → Outcome
  | 0, s => .next s
  | k + 1, s =>
    match step s with
    | .next t => iterate k t
    | .fault r => .fault r
    | .refused r => .refused r

/-- A sequence of instructions executed one after another, stopping at the first stop. -/
def execAll : List Instr → State → Outcome
  | [], s => .next s
  | i :: is, s =>
    match exec i s with
    | .next t => execAll is t
    | .fault r => .fault r
    | .refused r => .refused r

/-- The host's commands for one digest, as command words: INIT, one UPDATE per payload, FINAL (R70, R233). -/
def digestCommands (payloads : List (List Byte)) : List HostAction :=
  .command ⟨0b00#2, []⟩ :: payloads.map (fun p => .command ⟨0b01#2, p⟩) ++ [.command ⟨0b10#2, []⟩]

/-- The action list does not begin with a reset. -/
def noResetFirst (l : List HostAction) : Prop := ∀ w rest, l ≠ .reset w :: rest

/-- The action list holds no reset. -/
def noReset (l : List HostAction) : Prop := ∀ w, .reset w ∉ l

/-! ## The context -/

/-- `buffer[0 .. index)`: the valid bytes of the buffer, in message order (R25). -/
def validBytes (s : State) : List Byte := (List.range (fillLevel s.bitCount)).map s.buffer.read

/-- The engine is ready for UPDATE and FINAL: a live, unfaulted context in canonical storage. -/
structure Ready (s : State) : Prop where
  /-- No fault (R213). -/
  unfaulted : s.fault = false
  /-- A live context (R210, R211). -/
  isLive : s.live = true
  /-- The buffer is in canonical form (Log 9). -/
  canonical : s.buffer.wf

/-- What holds at every command boundary, and between the steps of a transform (R27, R31). -/
structure Inv (s : State) : Prop where
  /-- I1: the bit count is a whole number of bytes. -/
  wholeBytes : s.bitCount.toNat % 8 = 0
  /-- The buffer is in canonical form (Log 9). -/
  canonical : s.buffer.wf
  /-- I4: a context that is not live is all zero. -/
  deadIsZero : s.live = false → s.hash = ⟨0, 0, 0, 0⟩ ∧ s.bitCount = 0 ∧ s.buffer = []
  /-- `cause = 0` exactly when `fault = 0` (R31). -/
  causeOfFault : s.cause = .none ↔ s.fault = false
  /-- A transform is in progress only inside a command on a live, unfaulted context (R21, R85, R190; Log 3). -/
  transformInside : s.transform ≠ none → s.live = true ∧ s.fault = false

/-- Two states that differ at most in stale bytes of the buffer, those at or above the fill level (R26). -/
structure AgreeOnValid (s t : State) : Prop where
  /-- The hash states agree. -/
  hash : s.hash = t.hash
  /-- The bit counts agree. -/
  bitCount : s.bitCount = t.bitCount
  /-- The valid bytes agree. -/
  valid : validBytes s = validBytes t
  /-- Both buffers are in canonical form. -/
  canonical : s.buffer.wf ∧ t.buffer.wf
  /-- The flags agree. -/
  flags : s.live = t.live ∧ s.fault = t.fault ∧ s.cause = t.cause
  /-- The digest registers agree. -/
  digest : s.digest = t.digest
  /-- The transforms in progress agree. -/
  transform : s.transform = t.transform
  /-- The host sees the same. -/
  host : s.result = t.result ∧ s.pending = t.pending

/-- Two states that agree on everything a command's decisions look at (R37). -/
structure SameControl (s t : State) : Prop where
  /-- The flags agree. -/
  flags : s.live = t.live ∧ s.fault = t.fault ∧ s.cause = t.cause
  /-- The bit counts agree. -/
  bitCount : s.bitCount = t.bitCount

/-- Two instructions that differ at most in the values of payload bytes (R37). -/
def sameShape (i j : Instr) : Prop :=
  i = j ∨ ∃ p q, i = .update p ∧ j = .update q ∧ p.length = q.length

/-! ## The closed form of a digest -/

/-- Block `m` of a message, `M[64m .. 64m + 64)` (R91, R197). Only used where the message has those bytes. -/
def blockAt (M : List Byte) (m : Nat) : Block := Vector.ofFn fun j => M.getD (64 * m + j) 0

/-- The hash state after the first `n` blocks of a message, transformed in order (R27, R91, R109, R197). -/
def chain (h : Hash) (M : List Byte) (n : Nat) : Hash :=
  (List.range n).foldl (fun g m => transform g (blockAt M m)) h

/-- `Pad(M)` with `z = (55 - L) mod 64` zero bytes (R197). -/
def padMessage (M : List Byte) : List Byte :=
  M ++ [0x80] ++ List.replicate ((55 - (M.length : Int)) % 64).toNat 0 ++ encode64LE (BitVec.ofNat 64 (8 * M.length))

/-- The number of blocks of `Pad(M)` for a message of `L` bytes (R197). -/
def blockCount (L : Nat) : Nat := (L + 8) / 64 + 1

/-- The digest of a message in closed form (R197). -/
def refDigest (M : List Byte) : Digest := digestOf (chain initHash (padMessage M) (blockCount M.length))

/-! ## What a command's decisions leave behind (R37) -/

/-- UPDATE of `data` took `s` to `s'` by the short branch: no transform, and the payload at the fill level (R88). -/
structure TookShort (data : List Byte) (s s' : State) : Prop where
  /-- No transform ran. -/
  hash : s'.hash = s.hash
  /-- Every byte of the buffer is the payload's or the old one, by its address. -/
  bytes : ∀ a, a < 64 → s'.buffer.read a =
    if fillLevel s.bitCount ≤ a ∧ a < fillLevel s.bitCount + data.length then data.getD (a - fillLevel s.bitCount) 0
    else s.buffer.read a

/-- UPDATE of `data` took `s` to `s'` by the long branch, with `direct` blocks transformed directly (R89). The bytes above
the tail show that only the first block went through the buffer. -/
structure TookLong (direct : Nat) (data : List Byte) (s s' : State) : Prop where
  /-- The flush and `direct` further transforms ran, in order. -/
  hash : s'.hash = chain s.hash (validBytes s ++ data) (1 + direct)
  /-- Every byte of the buffer is the tail's or the flushed block's, by its address. -/
  bytes : ∀ a, a < 64 → s'.buffer.read a =
    if a < fillLevel s.bitCount + data.length - 64 * (1 + direct) then (validBytes s ++ data).getD (64 * (1 + direct) + a) 0
    else (validBytes s ++ data).getD a 0

/-- The message bytes FINAL transforms when it pads with `padlen` bytes: the valid bytes, the padding and the trailer (R191,
R192, R193). -/
def paddedTail (padlen : Nat) (s : State) : List Byte :=
  validBytes s ++ [0x80] ++ List.replicate (padlen - 1) 0 ++ encode64LE s.bitCount

/-- FINAL took `s` to `s'` with `padlen` padding bytes and `blocks` transforms: they show in the digest (R190). -/
def PaddedBy (padlen blocks : Nat) (s s' : State) : Prop :=
  (paddedTail padlen s).length = 64 * blocks ∧ s'.digest = digestOf (chain s.hash (paddedTail padlen s) blocks)

/-! ## The rotating form of the transform -/

/-- Step `i` with fixed roles, the register names moving on by one place (R108). -/
def rotatingStep (x : MessageWords) (r : Working) (i : BitVec 6) : Working :=
  ⟨r.d, r.b + rotl32 (r.a + mixOf (i.extractLsb' 4 2) r.b r.c r.d + x.get (wordIndex i) + roundConstant i)
    (rotationAmount i), r.b, r.c⟩

/-- The transform as a loop over the tables (R108). -/
def rotatingTransform (h : Hash) (b : Block) : Hash :=
  addBack h (((List.range 64).map (BitVec.ofNat 6)).foldl (rotatingStep (messageWords b)) (seedWorking h))

/-! ## The effect of one step -/

/-- Step index `i` stands for `ins`, and in any transform in progress `ins` replaces the working registers by
`f a b c d X` and changes nothing else: not `X`, not the index, not the hash state, no flag, no byte of the buffer. -/
def StepEffect (i : BitVec 6) (ins : Instr) (f : Word → Word → Word → Word → MessageWords → Working) : Prop :=
  decode (.step i) = .ok ins ∧ encode ins = .step i ∧
  ∀ (s : State) (a b c d : Word) (X : MessageWords) (j : BitVec 6),
    s.transform = some ⟨⟨a, b, c, d⟩, X, j⟩ →
    exec ins s = .next { s with transform := some ⟨f a b c d X, X, j⟩ }

end Sys2Proof.Safety
end

