-- ==== Sys2Proof/Certificates/Slice0/Obligations.lean ====
section
/-! DEFINITION. The statements about the engine, from the spec's numbered rules. Each docstring names the rule it
formalises, or says what it is derived from. -/

open Sys2Proof Sys2Proof.Machine Sys2Proof.Safety

/-! ## Reset and the invariant -/

/-- R35: the reset value of every register, and `STATUS` reads 0. -/
def Obligations.ResetValueOfEveryRegister : Prop :=
  State.reset.hash = ⟨0, 0, 0, 0⟩ ∧ State.reset.bitCount = 0 ∧ (∀ a, a < 64 → State.reset.buffer.read a = 0) ∧
  State.reset.live = false ∧ State.reset.fault = false ∧ State.reset.cause = .none ∧
  (∀ j : Fin 16, State.reset.digest.get j = 0) ∧ State.reset.transform = none ∧ State.reset.status = 0

/-- Derived from R230: reset, whatever command it overtakes and whatever is in progress, gives every register its
reset value, clears `fault`, leaves no transform and returns no result; the host's later actions remain (the model's
choice, Log 15). -/
def Obligations.ResetActionClearsEveryRegister : Prop :=
  ∀ (s : State) (w : Option CommandWords) (rest : List HostAction), s.pending = .reset w :: rest →
    ∃ t, step s = .next t ∧ t.hash = ⟨0, 0, 0, 0⟩ ∧ t.bitCount = 0 ∧ (∀ a, a < 64 → t.buffer.read a = 0) ∧
      t.live = false ∧ t.fault = false ∧ t.cause = .none ∧ (∀ j : Fin 16, t.digest.get j = 0) ∧
      t.transform = none ∧ t.result = .nothing ∧ t.pending = rest

/-- Derived from R27 and R31: the invariant holds at reset. -/
def Obligations.ContextInvariantAtReset : Prop := Inv State.reset

/-- Derived from R27 (I1, I2, I4), R31 and the canonical form of the buffer (Log 9): every step keeps the invariant.
-/
def Obligations.EveryStepKeepsContextInvariant : Prop :=
  ∀ s s' : State, Inv s → step s = .next s' → Inv s'

/-! ## Encoding and fetch -/

/-- Derived from R61 and R64: command words and step indexes written out from 30_encoding.md decode to the instruction
they stand for. -/
def Obligations.WrittenOutWordsDecode : Prop :=
  decode (.command ⟨0b00#2, []⟩) = .ok .init ∧ decode (.command ⟨0b01#2, [0x61, 0x62, 0x63]⟩) = .ok (.update [0x61, 0x62, 0x63]) ∧
  decode (.command ⟨0b10#2, []⟩) = .ok .final ∧ decode (.command ⟨0b11#2, []⟩) = .ok .reserved3 ∧
  decode (.step 0b000000#6) = .ok .ff00 ∧ decode (.step 0b010001#6) = .ok .gg17 ∧
  decode (.step 0b100010#6) = .ok .hh34 ∧ decode (.step 0b111111#6) = .ok .ii63

/-- Derived from R61, R62, R64 and R73: decoding the encoding of a well-formed instruction gives it back, for every
instruction, every payload and every value of `MAX_UPDATE_LEN`. -/
def Obligations.DecodeOfEncodeGivesBackInstr : Prop :=
  ∀ (cap : Option Nat) (i : Instr), i.wfWith cap = true → decodeWith cap (encode i) = .ok i

/-- Derived from R61, R63 and R64: whatever the decoder accepts is well formed and encodes to the same words, so every
word has one meaning (that it rejects bytes after a command without payload is the model's choice, Log 6). -/
def Obligations.EncodeOfDecodeGivesBackWords : Prop :=
  ∀ (cap : Option Nat) (w : Words) (i : Instr), decodeWith cap w = .ok i → encode i = w ∧ i.wfWith cap = true

/-- Derived from R60 and R236, over the model's list of host actions (Log 1): when the host's next action is command
words that decode to `i`, one step is the whole of `exec i`, on the state with that action taken. -/
def Obligations.StepRunsDecodedCommand : Prop :=
  ∀ (s : State) (w : CommandWords) (rest : List HostAction) (i : Instr),
    s.pending = .command w :: rest → s.transform = none → decode (.command w) = .ok i →
    step s = exec i { s with pending := rest }

/-- Derived from R28, over the model's one-step view of a transform (Log 3): while a transform is in progress one step
is `exec` of the step its index stands for, after which the index advances by exactly 1, or after step 63 the working
registers are added into the hash state and the transform ends. -/
def Obligations.StepRunsSequencedTransformStep : Prop :=
  ∀ (s : State) (t : TransformRun), s.transform = some t → noResetFirst s.pending →
    ∃ t' : TransformRun, exec (decodeStep t.i) s = .next { s with transform := some t' } ∧ t'.i = t.i ∧
      step s = .next (if t.i = 63#6 then { s with hash := addBack s.hash t'.regs, transform := none }
        else { s with transform := some { t' with i := t.i + 1 } })

/-- The model's own (Log 14, Log 17): with nothing pending and no transform in progress a step changes nothing; a read
of `STATUS` or `digest` returns the view and changes no register (R33, R34, R46). -/
def Obligations.IdleAndReadsChangeNoRegister : Prop :=
  ∀ (s : State), s.transform = none →
    (s.pending = [] → step s = .next s) ∧
    (∀ rest, s.pending = .readStatus :: rest →
      step s = .next { s with pending := rest, result := .status s.status }) ∧
    (∀ rest, s.pending = .readDigest :: rest →
      step s = .next { s with pending := rest, result := .digest s.digest })

/-- Derived from R33: the bits of `STATUS`. -/
def Obligations.StatusBitsAreTheFlags : Prop :=
  ∀ s : State, s.status.getLsbD 0 = s.live ∧ s.status.getLsbD 1 = s.fault ∧
    s.status.extractLsb' 2 2 = (match s.cause with
      | .none => 0b00#2
      | .misuseUpdate => 0b01#2
      | .misuseFinal => 0b10#2
      | .illegalOp => 0b11#2)

/-- Derived from R60, R61, R63, R67, R213: the machine never stops with a fault, and the only step without a next
state is one that meets, in an unfaulted engine, command words with bytes after a command that has no payload (Log 6).
-/
def Obligations.MachineStopsOnlyOnMalformedWords : Prop :=
  ∀ s : State, (∃ t, step s = .next t) ∨
    (s.transform = none ∧ s.fault = false ∧ ∃ w rest, s.pending = .command w :: rest ∧ w.op ≠ 0b01#2 ∧ w.payload ≠ [] ∧
      step s = .refused (.undecodable (.payloadNotAllowed w.op)))

/-! ## Faults -/

/-- R214, R212: the reserved command word sets `fault` and `cause = 3` whatever `live` is, and nothing else; it
returns nothing. -/
def Obligations.ReservedOpRaisesIllegalOp : Prop :=
  ∀ s : State, s.fault = false →
    exec .reserved3 s = .next { s with fault := true, cause := .illegalOp, result := .nothing }

/-- R210, R212: UPDATE on a context that is not live sets `fault` and `cause = 1` and nothing else, whatever the
payload. -/
def Obligations.UpdateWithoutContextFaults : Prop :=
  ∀ (s : State) (data : List Byte), s.fault = false → s.live = false →
    exec (.update data) s = .next { s with fault := true, cause := .misuseUpdate, result := .nothing }

/-- R211, R212: FINAL on a context that is not live sets `fault` and `cause = 2` and nothing else; no digest is
returned and `digest` keeps its value. -/
def Obligations.FinalWithoutContextFaults : Prop :=
  ∀ s : State, s.fault = false → s.live = false →
    exec .final s = .next { s with fault := true, cause := .misuseFinal, result := .nothing }

/-- Derived from R213 and R219: while `fault = 1` every command is refused: it changes no state, consumes nothing and
returns nothing, and `fault` stays 1; reset is the way out. The two clauses about a step rest on the model's list of host
actions (Log 1), and that a step refuses malformed command words too, because R219 refuses before decoding, is the
model's inference (Log 8). -/
def Obligations.StickyFaultRefusesEveryCommand : Prop :=
  ∀ s : State, s.fault = true →
    (∀ i : Instr, i.isStep = false → exec i s = .next { s with result := .nothing }) ∧
    (∀ w rest, s.pending = .command w :: rest → s.transform = none →
      step s = .next { s with pending := rest, result := .nothing }) ∧
    (∀ w rest, s.pending = .reset w :: rest → ∃ t, step s = .next t ∧ t.fault = false ∧ t.cause = .none)

/-- Derived from R213 and R31, over the model's host actions (Log 1): from a faulted engine between commands no
sequence of host actions without a reset changes any register, not even `cause`; every such run goes on. -/
def Obligations.FaultedEngineIsFrozenUntilReset : Prop :=
  ∀ (k : Nat) (s : State), s.fault = true → s.transform = none → noReset s.pending →
    ∃ r p, iterate k s = .next { s with result := r, pending := p }

/-- Derived from R29, R30, R31, R34: over all instructions, `live` changes only to 1 by INIT and to 0 by FINAL;
`fault` is never cleared and `cause` is written only when `fault` goes from 0 to 1; `digest` changes only by a FINAL
that returns it. -/
def Obligations.OnlyNamedInstrWriteFlagsAndDigest : Prop :=
  ∀ (i : Instr) (s t : State), exec i s = .next t →
    (t.live ≠ s.live → (i = .init ∧ t.live = true) ∨ (i = .final ∧ t.live = false)) ∧
    (s.fault = true → t.fault = true ∧ t.cause = s.cause) ∧
    (t.cause ≠ s.cause → s.fault = false ∧ t.fault = true) ∧
    (t.digest ≠ s.digest → i = .final ∧ s.live = true ∧ s.fault = false ∧ t.result = .digest t.digest)

/-! ## INIT -/

/-- R80: INIT, whatever `live` is, loads the four constants, clears the count and makes the context live, and returns
nothing; the buffer, `digest`, `fault` and `cause` are unchanged. With `fault = 1` it changes nothing. Its encoding.
-/
def Obligations.InitStartsFreshContext : Prop :=
  encode .init = .command ⟨0b00#2, []⟩ ∧
  ∀ s : State,
    (s.fault = false → exec .init s = .next { s with
      hash := ⟨0x67452301, 0xefcdab89, 0x98badcfe, 0x10325476⟩, bitCount := 0, live := true, result := .nothing }) ∧
    (s.fault = true → exec .init s = .next { s with result := .nothing })

/-! ## UPDATE -/

/-- R88: a payload shorter than the deficit is appended at `buffer[index ..)`; the hash state is unchanged, the count
grows by `8 x n` and every other byte, register and flag is unchanged. -/
def Obligations.ShortUpdateAppendsToBuffer : Prop :=
  ∀ (s : State) (data : List Byte), Ready s → data.length < 64 - fillLevel s.bitCount →
    ∃ m : Memory, exec (.update data) s = .next { s with
        bitCount := s.bitCount + BitVec.ofNat 64 (8 * data.length), buffer := m, result := .nothing } ∧
      m.wf ∧
      fillLevel (s.bitCount + BitVec.ofNat 64 (8 * data.length)) = fillLevel s.bitCount + data.length ∧
      (∀ a, a < fillLevel s.bitCount ∨ fillLevel s.bitCount + data.length ≤ a → m.read a = s.buffer.read a) ∧
      (∀ j, (hj : j < data.length) → m.read (fillLevel s.bitCount + j) = data[j])

/-- R89: a payload of at least the deficit runs `T = 1 + floor((n - deficit) / 64) = floor((index + n) / 64)`
transforms, in order, on the valid bytes followed by the payload; the rest becomes the tail at `buffer[0 ..)`, and the
bytes above the tail keep the values of the flushed block. Every other register and flag is unchanged. -/
def Obligations.LongUpdateTransformsEveryFullBlock : Prop :=
  ∀ (s : State) (data : List Byte), Ready s → 64 - fillLevel s.bitCount ≤ data.length →
    1 + (data.length - (64 - fillLevel s.bitCount)) / 64 = (fillLevel s.bitCount + data.length) / 64 ∧
    ∃ m : Memory, exec (.update data) s = .next { s with
        hash := chain s.hash (validBytes s ++ data) ((fillLevel s.bitCount + data.length) / 64),
        bitCount := s.bitCount + BitVec.ofNat 64 (8 * data.length), buffer := m, result := .nothing } ∧
      m.wf ∧
      fillLevel (s.bitCount + BitVec.ofNat 64 (8 * data.length)) = (fillLevel s.bitCount + data.length) % 64 ∧
      (∀ j, j < (fillLevel s.bitCount + data.length) % 64 →
        m.read j = (validBytes s ++ data).getD (64 * ((fillLevel s.bitCount + data.length) / 64) + j) 0) ∧
      (∀ j, (fillLevel s.bitCount + data.length) % 64 ≤ j → j < 64 → m.read j = (validBytes s ++ data).getD j 0)

/-- R87: whichever branch the datapath takes, and whoever calls it, the count becomes `(bit_count + 8 x n) mod 2^64`
and the fill level `(index + n) mod 64`, with no flag written; and an UPDATE on a live context does just this, with no
fault. -/
def Obligations.UpdateAddsEightBitsPerByte : Prop :=
  ∀ (s : State) (data : List Byte),
    ((updateCore data s).bitCount.toNat = (s.bitCount.toNat + 8 * data.length) % 2 ^ 64 ∧
      fillLevel (updateCore data s).bitCount = (fillLevel s.bitCount + data.length) % 64 ∧
      (updateCore data s).live = s.live ∧ (updateCore data s).fault = s.fault ∧ (updateCore data s).cause = s.cause) ∧
    (s.fault = false → s.live = true →
     ∃ t, exec (.update data) s = .next t ∧ t.bitCount.toNat = (s.bitCount.toNat + 8 * data.length) % 2 ^ 64 ∧
      fillLevel t.bitCount = (fillLevel s.bitCount + data.length) % 64 ∧
      t.live = true ∧ t.fault = false ∧ t.cause = s.cause ∧ t.digest = s.digest)

/-- R90: an empty UPDATE on a live context changes nothing, and faults like any other when the context is not live. -/
def Obligations.EmptyUpdateIsNoOp : Prop :=
  ∀ s : State, s.fault = false →
    (s.live = true → exec (.update []) s = .next { s with result := .nothing }) ∧
    (s.live = false → exec (.update []) s = .next { s with fault := true, cause := .misuseUpdate, result := .nothing })

/-- R92, streaming equivalence: `UPDATE a ++ b` and `UPDATE a`; `UPDATE b` leave the same hash state, count and valid
bytes, and the same digest after FINAL. -/
def Obligations.SplittingAPayloadChangesNothing : Prop :=
  ∀ (s : State) (a b : List Byte), Ready s →
    ∃ t u, exec (.update (a ++ b)) s = .next t ∧ execAll [.update a, .update b] s = .next u ∧
      t.hash = u.hash ∧ t.bitCount = u.bitCount ∧ validBytes t = validBytes u ∧
      ∃ t' u', exec .final t = .next t' ∧ exec .final u = .next u' ∧ t'.digest = u'.digest ∧ t'.result = u'.result

/-- R91 and I3 of R27: after INIT and any UPDATEs with concatenated message `M`, the hash state is the fold of the
transform over the first `floor(len(M)/64)` blocks of `M`, the count is `8 x len(M)` modulo `2^64`, and the valid
bytes are the rest. -/
def Obligations.UpdatesFoldAlignedBlocks : Prop :=
  ∀ (s : State) (ps : List (List Byte)), s.fault = false → s.buffer.wf →
    ∃ t, execAll (.init :: ps.map .update) s = .next t ∧
      t.hash = chain initHash ps.flatten (ps.flatten.length / 64) ∧
      t.bitCount = BitVec.ofNat 64 (8 * ps.flatten.length) ∧
      validBytes t = ps.flatten.drop (64 * (ps.flatten.length / 64)) ∧
      t.live = true ∧ t.fault = false ∧ t.digest = s.digest

/-! ## FINAL -/

/-- R192: the padding is `0x80` and zeros, of the one length in 1 to 64 that brings the fill level to 56, by the
formula; below 56 it runs no transform, otherwise one, on the current block completed by its first bytes, and leaves
56 zero bytes. -/
def Obligations.PaddingBringsFillTo56 : Prop :=
  ∀ s : State, s.buffer.wf →
    (padding (fillLevel s.bitCount)).length = padLen (fillLevel s.bitCount) ∧
    1 ≤ padLen (fillLevel s.bitCount) ∧ padLen (fillLevel s.bitCount) ≤ 64 ∧
    (fillLevel s.bitCount + padLen (fillLevel s.bitCount)) % 64 = 56 ∧
    (∀ n, 1 ≤ n → n ≤ 64 → (fillLevel s.bitCount + n) % 64 = 56 → n = padLen (fillLevel s.bitCount)) ∧
    padLen (fillLevel s.bitCount) =
      (if fillLevel s.bitCount < 56 then 56 - fillLevel s.bitCount else 120 - fillLevel s.bitCount) ∧
    (∀ j, j < padLen (fillLevel s.bitCount) →
      (padding (fillLevel s.bitCount)).getD j 0 = if j = 0 then 0x80#8 else 0x00#8) ∧
    fillLevel (updateCore (padding (fillLevel s.bitCount)) s).bitCount = 56 ∧
    (fillLevel s.bitCount < 56 →
      (updateCore (padding (fillLevel s.bitCount)) s).hash = s.hash ∧
      validBytes (updateCore (padding (fillLevel s.bitCount)) s) = validBytes s ++ padding (fillLevel s.bitCount)) ∧
    (56 ≤ fillLevel s.bitCount →
      (updateCore (padding (fillLevel s.bitCount)) s).hash =
        transform s.hash (blockAt (validBytes s ++ padding (fillLevel s.bitCount)) 0) ∧
      validBytes (updateCore (padding (fillLevel s.bitCount)) s) = List.replicate 56 0)

/-- R193: at fill level 56 the 8-byte trailer is written at `buffer[56..64)`, completes the block, runs exactly one
transform and leaves an empty tail. -/
def Obligations.TrailerTriggersOneTransform : Prop :=
  ∀ (s : State) (c : Count), s.buffer.wf → fillLevel s.bitCount = 56 →
    (updateCore (encode64LE c) s).hash = transform s.hash (blockAt (validBytes s ++ encode64LE c) 0) ∧
    fillLevel (updateCore (encode64LE c) s).bitCount = 0 ∧ validBytes (updateCore (encode64LE c) s) = [] ∧
    ∀ j, j < 8 → (updateCore (encode64LE c) s).buffer.read (56 + j) = (encode64LE c).getD j 0

/-- R190: refused with `fault = 1`; `Fault(2)` when the context is not live; otherwise FINAL pads the valid bytes,
appends the count as it stood on entry, transforms the one or two blocks that result, returns the state's bytes and
writes them to `digest`, zeroes the context and clears `live`; `fault`, `cause` and everything else is unchanged. Its
encoding. -/
def Obligations.FinalReturnsDigestAndZeroizes : Prop :=
  encode .final = .command ⟨0b10#2, []⟩ ∧
  ∀ s : State,
    (s.fault = true → exec .final s = .next { s with result := .nothing }) ∧
    (s.fault = false → s.live = false →
      exec .final s = .next { s with fault := true, cause := .misuseFinal, result := .nothing }) ∧
    (Ready s →
      let padlen := if fillLevel s.bitCount < 56 then 56 - fillLevel s.bitCount else 120 - fillLevel s.bitCount
      let last := validBytes s ++ [0x80] ++ List.replicate (padlen - 1) 0 ++ encode64LE s.bitCount
      let n := if fillLevel s.bitCount ≤ 55 then 1 else 2
      let out := digestOf (chain s.hash last n)
      last.length = 64 * n ∧
      exec .final s = .next { s with
        hash := ⟨0, 0, 0, 0⟩, bitCount := 0, buffer := [], live := false, digest := out, result := .digest out })

/-- R197 over the machine's own steps: from any unfaulted engine between commands, INIT, any UPDATEs and FINAL return
the closed-form digest of the concatenated payloads, leave it in `digest`, and leave a zeroed context. `Pad(M)` is a
whole number of blocks. -/
def Obligations.DigestOfRunIsClosedForm : Prop :=
  (∀ M : List Byte, (padMessage M).length = 64 * blockCount M.length) ∧
  ∀ (s : State) (ps : List (List Byte)) (rest : List HostAction), s.fault = false → s.transform = none → s.buffer.wf →
    s.pending = digestCommands ps ++ rest →
    iterate (ps.length + 2) s = .next { s with
      hash := ⟨0, 0, 0, 0⟩, bitCount := 0, buffer := [], live := false, digest := refDigest ps.flatten,
      result := .digest (refDigest ps.flatten), pending := rest }

/-! ## Data independence -/

/-- Derived from R26: stale buffer bytes are unobservable; states that differ only in them step alike for ever. -/
def Obligations.StaleBytesAreUnobservable : Prop :=
  ∀ s t s' : State, AgreeOnValid s t → step s = .next s' → ∃ t', step t = .next t' ∧ AgreeOnValid s' t'

/-- Derived from R37 (with R89, R190 and R192): each decision of a command depends on the flags, the count and the
payload's length only, never on a payload byte, a buffer byte or a state word. Two commands that differ only in data
values, on states that agree on flags and count, are both refused, both fault or both execute; both UPDATEs take the
branch that `n < 64 - index` says, with `floor((index + n) / 64) - 1` direct blocks on the long one; both FINALs pad by
the length that `index < 56` says. That the buffers are canonical is the model's premise (Log 9). -/
def Obligations.ControlIgnoresDataValues : Prop :=
  ∀ (i j : Instr) (s t : State), i.isStep = false → sameShape i j → SameControl s t →
    ∃ s' t', exec i s = .next s' ∧ exec j t = .next t' ∧ SameControl s' t' ∧
      (s'.result = .nothing ↔ t'.result = .nothing) ∧
      (s.fault = true → s' = { s with result := .nothing } ∧ t' = { t with result := .nothing }) ∧
      (s.fault = false → s.live = true → s.buffer.wf → t.buffer.wf →
        (∀ p q, i = .update p → j = .update q → p.length < 64 - fillLevel s.bitCount →
          TookShort p s s' ∧ TookShort q t t') ∧
        (∀ p q, i = .update p → j = .update q → 64 - fillLevel s.bitCount ≤ p.length →
          TookLong ((fillLevel s.bitCount + p.length) / 64 - 1) p s s' ∧
          TookLong ((fillLevel s.bitCount + p.length) / 64 - 1) q t t') ∧
        (i = .final → fillLevel s.bitCount < 56 →
          PaddedBy (56 - fillLevel s.bitCount) 1 s s' ∧ PaddedBy (56 - fillLevel s.bitCount) 1 t t') ∧
        (i = .final → 56 ≤ fillLevel s.bitCount →
          PaddedBy (120 - fillLevel s.bitCount) 2 s s' ∧ PaddedBy (120 - fillLevel s.bitCount) 2 t t'))

/-- Derived from R53 and R222: a step of one engine changes no other, and depends on no other. -/
def Obligations.EnginesShareNothing : Prop :=
  ∀ (n : Nat) (k : Fin n) (e f : Engines n), e.get k = f.get k →
    ∀ e', Engines.step k e = .next e' →
      (∀ j, j ≠ k → e'.get j = e.get j) ∧ step (e.get k) = .next (e'.get k) ∧
      ∃ f', Engines.step k f = .next f' ∧ f'.get k = e'.get k

/-! ## The block transform -/

/-- Derived from R108: the transform equals its rotating form, a loop over the tables. -/
def Obligations.TransformEqualsRotatingForm : Prop :=
  ∀ (h : Hash) (b : Block), transform h b = rotatingTransform h b

/-- Derived from R100 and R28, over the one-step view (Log 3): 64 steps of the machine from a transform just begun
compute `Transform` into the hash state, end the transform and change nothing else. -/
def Obligations.SixtyFourStepsComputeTransform : Prop :=
  ∀ (s : State) (b : Block), noResetFirst s.pending →
    iterate 64 (beginTransform b s) = .next { s with hash := transform s.hash b, transform := none }

/-- Derived from R101 with R65: every step index runs the template, with the operands read from the index and the
tables. -/
def Obligations.EveryStepFollowsTemplate : Prop :=
  ∀ (i : BitVec 6) (s : State) (t : TransformRun), s.transform = some t →
    exec (decodeStep i) s = .next { s with transform := some { t with regs := templateStep i t.x t.regs } }

/-- The model's own (Log 7), from R60 and R67: a step presented while no transform is in progress is refused by name.
-/
def Obligations.StepsOutsideTransformAreRefused : Prop :=
  ∀ (i : BitVec 6) (s : State), s.transform = none → exec (decodeStep i) s = .refused (.noTransformInProgress i)

/-- Derived from R110, R130, R150, R170: the round functions bit by bit: `F` chooses by `x`, `G` chooses by `z`, `H`
is parity, `I` is `y` inverted where `x` is 1 or `z` is 0. -/
def Obligations.RoundFunctionsBitByBit : Prop :=
  ∀ (x y z : Word) (j : Nat), j < 32 →
    (mixF x y z).getLsbD j = (if x.getLsbD j then y.getLsbD j else z.getLsbD j) ∧
    (mixG x y z).getLsbD j = (if z.getLsbD j then x.getLsbD j else y.getLsbD j) ∧
    (mixH x y z).getLsbD j = (x.getLsbD j ^^ y.getLsbD j ^^ z.getLsbD j) ∧
    (mixI x y z).getLsbD j = (y.getLsbD j ^^ (x.getLsbD j || !z.getLsbD j))

/-- Derived from R8: `rotl32` by 1 to 31 moves bit `j` to bit `(j + s) mod 32`, and is the shift formula on naturals.
-/
def Obligations.RotationMovesEveryBit : Prop :=
  ∀ (v : Word) (s : Nat), 1 ≤ s → s ≤ 31 →
    (∀ j, j < 32 → (rotl32 v s).getLsbD ((j + s) % 32) = v.getLsbD j) ∧
    (rotl32 v s).toNat = ((v.toNat * 2 ^ s) ||| (v.toNat / 2 ^ (32 - s))) % 2 ^ 32

/-- Derived from R106: in every round the sixteen message words are used once each. -/
def Obligations.EveryRoundPermutesMessageWords : Prop :=
  ∀ (r : BitVec 2) (k : Fin 16), ∃ p : BitVec 4, wordIndex (r ++ p) = k ∧ ∀ q : BitVec 4, wordIndex (r ++ q) = k → q = p

/-- Derived from R66 (the closed forms of `S` and `KIDX`), R104 and R105: the tables follow their formulas, so every
amount is in 4 to 23. -/
def Obligations.IndexAndRotationTablesFollowFormulas : Prop :=
  ∀ (r : BitVec 2) (p : BitVec 4),
    (wordIndex (r ++ p)).val = (if r = 0 then p.toNat else if r = 1 then (5 * p.toNat + 1) % 16
      else if r = 2 then (3 * p.toNat + 5) % 16 else (7 * p.toNat) % 16) ∧
    rotationAmount (r ++ p) = ((if r = 0 then [7, 12, 17, 22] else if r = 1 then [5, 9, 14, 20]
      else if r = 2 then [4, 11, 16, 23] else [6, 10, 15, 21]).getD (p.toNat % 4) 0) ∧
    4 ≤ rotationAmount (r ++ p) ∧ rotationAmount (r ++ p) ≤ 23

/-! ## The codec -/

/-- R203 (and R200's sum): the word codec is the little-endian sum, and its two halves invert each other. -/
def Obligations.WordCodecRoundTrip : Prop :=
  (∀ b0 b1 b2 b3 : Byte, (decode32LE b0 b1 b2 b3).toNat =
      b0.toNat + 2 ^ 8 * b1.toNat + 2 ^ 16 * b2.toNat + 2 ^ 24 * b3.toNat ∧
    encode32LE (decode32LE b0 b1 b2 b3) = [b0, b1, b2, b3]) ∧
  ∀ w : Word, ∃ b0 b1 b2 b3, encode32LE w = [b0, b1, b2, b3] ∧ decode32LE b0 b1 b2 b3 = w

/-- R202: the trailer's encoding, byte by byte and as two words, low half first. -/
def Obligations.CountCodecLowHalfFirst : Prop :=
  ∀ v : Count, encode64LE v = encode32LE (v.extractLsb' 0 32) ++ encode32LE (v.extractLsb' 32 32) ∧
    (encode64LE v).length = 8 ∧ ∀ k, k < 8 → (encode64LE v).getD k 0 = v.extractLsb' (8 * k) 8

/-- R44: message word `j` of a block, as the little-endian sum and byte by byte. -/
def Obligations.MessageWordsAreLittleEndian : Prop :=
  ∀ (b : Block) (j : Fin 16),
    ((messageWords b).get j).toNat = (b.get ⟨4 * j.val, by omega⟩).toNat + 2 ^ 8 * (b.get ⟨4 * j.val + 1, by omega⟩).toNat +
      2 ^ 16 * (b.get ⟨4 * j.val + 2, by omega⟩).toNat + 2 ^ 24 * (b.get ⟨4 * j.val + 3, by omega⟩).toNat ∧
    ∀ k : Fin 4, ((messageWords b).get j).extractLsb' (8 * k.val) 8 = b.get ⟨4 * j.val + k.val, by omega⟩

/-- Derived from R194 and R204: digest byte `4j + k` is bits `8k+7 : 8k` of hash word `j`. -/
def Obligations.DigestBytesInWordOrder : Prop :=
  ∀ (h : Hash) (j k : Fin 4), (digestOf h).get ⟨4 * j.val + k.val, by omega⟩ =
    (match j with
      | 0 => h.h0
      | 1 => h.h1
      | 2 => h.h2
      | 3 => h.h3).extractLsb' (8 * k.val) 8

/-! ## The 64 steps -/

/-- R111 to R118: each step's index, its new register value, and that nothing else changes. -/
def Obligations.StepsFF00ToFF07WriteOneRegister : Prop :=
  StepEffect 0b000000#6 .ff00 (fun a b c d X => ⟨b + rotl32 (a + mixF b c d + X.get 0 + 0xd76aa478) 7, b, c, d⟩) ∧
  StepEffect 0b000001#6 .ff01 (fun a b c d X => ⟨a, b, c, a + rotl32 (d + mixF a b c + X.get 1 + 0xe8c7b756) 12⟩) ∧
  StepEffect 0b000010#6 .ff02 (fun a b c d X => ⟨a, b, d + rotl32 (c + mixF d a b + X.get 2 + 0x242070db) 17, d⟩) ∧
  StepEffect 0b000011#6 .ff03 (fun a b c d X => ⟨a, c + rotl32 (b + mixF c d a + X.get 3 + 0xc1bdceee) 22, c, d⟩) ∧
  StepEffect 0b000100#6 .ff04 (fun a b c d X => ⟨b + rotl32 (a + mixF b c d + X.get 4 + 0xf57c0faf) 7, b, c, d⟩) ∧
  StepEffect 0b000101#6 .ff05 (fun a b c d X => ⟨a, b, c, a + rotl32 (d + mixF a b c + X.get 5 + 0x4787c62a) 12⟩) ∧
  StepEffect 0b000110#6 .ff06 (fun a b c d X => ⟨a, b, d + rotl32 (c + mixF d a b + X.get 6 + 0xa8304613) 17, d⟩) ∧
  StepEffect 0b000111#6 .ff07 (fun a b c d X => ⟨a, c + rotl32 (b + mixF c d a + X.get 7 + 0xfd469501) 22, c, d⟩)

/-- R119 to R126: each step's index, its new register value, and that nothing else changes. -/
def Obligations.StepsFF08ToFF15WriteOneRegister : Prop :=
  StepEffect 0b001000#6 .ff08 (fun a b c d X => ⟨b + rotl32 (a + mixF b c d + X.get 8 + 0x698098d8) 7, b, c, d⟩) ∧
  StepEffect 0b001001#6 .ff09 (fun a b c d X => ⟨a, b, c, a + rotl32 (d + mixF a b c + X.get 9 + 0x8b44f7af) 12⟩) ∧
  StepEffect 0b001010#6 .ff10 (fun a b c d X => ⟨a, b, d + rotl32 (c + mixF d a b + X.get 10 + 0xffff5bb1) 17, d⟩) ∧
  StepEffect 0b001011#6 .ff11 (fun a b c d X => ⟨a, c + rotl32 (b + mixF c d a + X.get 11 + 0x895cd7be) 22, c, d⟩) ∧
  StepEffect 0b001100#6 .ff12 (fun a b c d X => ⟨b + rotl32 (a + mixF b c d + X.get 12 + 0x6b901122) 7, b, c, d⟩) ∧
  StepEffect 0b001101#6 .ff13 (fun a b c d X => ⟨a, b, c, a + rotl32 (d + mixF a b c + X.get 13 + 0xfd987193) 12⟩) ∧
  StepEffect 0b001110#6 .ff14 (fun a b c d X => ⟨a, b, d + rotl32 (c + mixF d a b + X.get 14 + 0xa679438e) 17, d⟩) ∧
  StepEffect 0b001111#6 .ff15 (fun a b c d X => ⟨a, c + rotl32 (b + mixF c d a + X.get 15 + 0x49b40821) 22, c, d⟩)

/-- R131 to R138: each step's index, its new register value, and that nothing else changes. -/
def Obligations.StepsGG16ToGG23WriteOneRegister : Prop :=
  StepEffect 0b010000#6 .gg16 (fun a b c d X => ⟨b + rotl32 (a + mixG b c d + X.get 1 + 0xf61e2562) 5, b, c, d⟩) ∧
  StepEffect 0b010001#6 .gg17 (fun a b c d X => ⟨a, b, c, a + rotl32 (d + mixG a b c + X.get 6 + 0xc040b340) 9⟩) ∧
  StepEffect 0b010010#6 .gg18 (fun a b c d X => ⟨a, b, d + rotl32 (c + mixG d a b + X.get 11 + 0x265e5a51) 14, d⟩) ∧
  StepEffect 0b010011#6 .gg19 (fun a b c d X => ⟨a, c + rotl32 (b + mixG c d a + X.get 0 + 0xe9b6c7aa) 20, c, d⟩) ∧
  StepEffect 0b010100#6 .gg20 (fun a b c d X => ⟨b + rotl32 (a + mixG b c d + X.get 5 + 0xd62f105d) 5, b, c, d⟩) ∧
  StepEffect 0b010101#6 .gg21 (fun a b c d X => ⟨a, b, c, a + rotl32 (d + mixG a b c + X.get 10 + 0x02441453) 9⟩) ∧
  StepEffect 0b010110#6 .gg22 (fun a b c d X => ⟨a, b, d + rotl32 (c + mixG d a b + X.get 15 + 0xd8a1e681) 14, d⟩) ∧
  StepEffect 0b010111#6 .gg23 (fun a b c d X => ⟨a, c + rotl32 (b + mixG c d a + X.get 4 + 0xe7d3fbc8) 20, c, d⟩)

/-- R139 to R146: each step's index, its new register value, and that nothing else changes. -/
def Obligations.StepsGG24ToGG31WriteOneRegister : Prop :=
  StepEffect 0b011000#6 .gg24 (fun a b c d X => ⟨b + rotl32 (a + mixG b c d + X.get 9 + 0x21e1cde6) 5, b, c, d⟩) ∧
  StepEffect 0b011001#6 .gg25 (fun a b c d X => ⟨a, b, c, a + rotl32 (d + mixG a b c + X.get 14 + 0xc33707d6) 9⟩) ∧
  StepEffect 0b011010#6 .gg26 (fun a b c d X => ⟨a, b, d + rotl32 (c + mixG d a b + X.get 3 + 0xf4d50d87) 14, d⟩) ∧
  StepEffect 0b011011#6 .gg27 (fun a b c d X => ⟨a, c + rotl32 (b + mixG c d a + X.get 8 + 0x455a14ed) 20, c, d⟩) ∧
  StepEffect 0b011100#6 .gg28 (fun a b c d X => ⟨b + rotl32 (a + mixG b c d + X.get 13 + 0xa9e3e905) 5, b, c, d⟩) ∧
  StepEffect 0b011101#6 .gg29 (fun a b c d X => ⟨a, b, c, a + rotl32 (d + mixG a b c + X.get 2 + 0xfcefa3f8) 9⟩) ∧
  StepEffect 0b011110#6 .gg30 (fun a b c d X => ⟨a, b, d + rotl32 (c + mixG d a b + X.get 7 + 0x676f02d9) 14, d⟩) ∧
  StepEffect 0b011111#6 .gg31 (fun a b c d X => ⟨a, c + rotl32 (b + mixG c d a + X.get 12 + 0x8d2a4c8a) 20, c, d⟩)

/-- R151 to R158: each step's index, its new register value, and that nothing else changes. -/
def Obligations.StepsHH32ToHH39WriteOneRegister : Prop :=
  StepEffect 0b100000#6 .hh32 (fun a b c d X => ⟨b + rotl32 (a + mixH b c d + X.get 5 + 0xfffa3942) 4, b, c, d⟩) ∧
  StepEffect 0b100001#6 .hh33 (fun a b c d X => ⟨a, b, c, a + rotl32 (d + mixH a b c + X.get 8 + 0x8771f681) 11⟩) ∧
  StepEffect 0b100010#6 .hh34 (fun a b c d X => ⟨a, b, d + rotl32 (c + mixH d a b + X.get 11 + 0x6d9d6122) 16, d⟩) ∧
  StepEffect 0b100011#6 .hh35 (fun a b c d X => ⟨a, c + rotl32 (b + mixH c d a + X.get 14 + 0xfde5380c) 23, c, d⟩) ∧
  StepEffect 0b100100#6 .hh36 (fun a b c d X => ⟨b + rotl32 (a + mixH b c d + X.get 1 + 0xa4beea44) 4, b, c, d⟩) ∧
  StepEffect 0b100101#6 .hh37 (fun a b c d X => ⟨a, b, c, a + rotl32 (d + mixH a b c + X.get 4 + 0x4bdecfa9) 11⟩) ∧
  StepEffect 0b100110#6 .hh38 (fun a b c d X => ⟨a, b, d + rotl32 (c + mixH d a b + X.get 7 + 0xf6bb4b60) 16, d⟩) ∧
  StepEffect 0b100111#6 .hh39 (fun a b c d X => ⟨a, c + rotl32 (b + mixH c d a + X.get 10 + 0xbebfbc70) 23, c, d⟩)

/-- R159 to R166: each step's index, its new register value, and that nothing else changes. -/
def Obligations.StepsHH40ToHH47WriteOneRegister : Prop :=
  StepEffect 0b101000#6 .hh40 (fun a b c d X => ⟨b + rotl32 (a + mixH b c d + X.get 13 + 0x289b7ec6) 4, b, c, d⟩) ∧
  StepEffect 0b101001#6 .hh41 (fun a b c d X => ⟨a, b, c, a + rotl32 (d + mixH a b c + X.get 0 + 0xeaa127fa) 11⟩) ∧
  StepEffect 0b101010#6 .hh42 (fun a b c d X => ⟨a, b, d + rotl32 (c + mixH d a b + X.get 3 + 0xd4ef3085) 16, d⟩) ∧
  StepEffect 0b101011#6 .hh43 (fun a b c d X => ⟨a, c + rotl32 (b + mixH c d a + X.get 6 + 0x04881d05) 23, c, d⟩) ∧
  StepEffect 0b101100#6 .hh44 (fun a b c d X => ⟨b + rotl32 (a + mixH b c d + X.get 9 + 0xd9d4d039) 4, b, c, d⟩) ∧
  StepEffect 0b101101#6 .hh45 (fun a b c d X => ⟨a, b, c, a + rotl32 (d + mixH a b c + X.get 12 + 0xe6db99e5) 11⟩) ∧
  StepEffect 0b101110#6 .hh46 (fun a b c d X => ⟨a, b, d + rotl32 (c + mixH d a b + X.get 15 + 0x1fa27cf8) 16, d⟩) ∧
  StepEffect 0b101111#6 .hh47 (fun a b c d X => ⟨a, c + rotl32 (b + mixH c d a + X.get 2 + 0xc4ac5665) 23, c, d⟩)

/-- R171 to R178: each step's index, its new register value, and that nothing else changes. -/
def Obligations.StepsII48ToII55WriteOneRegister : Prop :=
  StepEffect 0b110000#6 .ii48 (fun a b c d X => ⟨b + rotl32 (a + mixI b c d + X.get 0 + 0xf4292244) 6, b, c, d⟩) ∧
  StepEffect 0b110001#6 .ii49 (fun a b c d X => ⟨a, b, c, a + rotl32 (d + mixI a b c + X.get 7 + 0x432aff97) 10⟩) ∧
  StepEffect 0b110010#6 .ii50 (fun a b c d X => ⟨a, b, d + rotl32 (c + mixI d a b + X.get 14 + 0xab9423a7) 15, d⟩) ∧
  StepEffect 0b110011#6 .ii51 (fun a b c d X => ⟨a, c + rotl32 (b + mixI c d a + X.get 5 + 0xfc93a039) 21, c, d⟩) ∧
  StepEffect 0b110100#6 .ii52 (fun a b c d X => ⟨b + rotl32 (a + mixI b c d + X.get 12 + 0x655b59c3) 6, b, c, d⟩) ∧
  StepEffect 0b110101#6 .ii53 (fun a b c d X => ⟨a, b, c, a + rotl32 (d + mixI a b c + X.get 3 + 0x8f0ccc92) 10⟩) ∧
  StepEffect 0b110110#6 .ii54 (fun a b c d X => ⟨a, b, d + rotl32 (c + mixI d a b + X.get 10 + 0xffeff47d) 15, d⟩) ∧
  StepEffect 0b110111#6 .ii55 (fun a b c d X => ⟨a, c + rotl32 (b + mixI c d a + X.get 1 + 0x85845dd1) 21, c, d⟩)

/-- R179 to R186: each step's index, its new register value, and that nothing else changes. -/
def Obligations.StepsII56ToII63WriteOneRegister : Prop :=
  StepEffect 0b111000#6 .ii56 (fun a b c d X => ⟨b + rotl32 (a + mixI b c d + X.get 8 + 0x6fa87e4f) 6, b, c, d⟩) ∧
  StepEffect 0b111001#6 .ii57 (fun a b c d X => ⟨a, b, c, a + rotl32 (d + mixI a b c + X.get 15 + 0xfe2ce6e0) 10⟩) ∧
  StepEffect 0b111010#6 .ii58 (fun a b c d X => ⟨a, b, d + rotl32 (c + mixI d a b + X.get 6 + 0xa3014314) 15, d⟩) ∧
  StepEffect 0b111011#6 .ii59 (fun a b c d X => ⟨a, c + rotl32 (b + mixI c d a + X.get 13 + 0x4e0811a1) 21, c, d⟩) ∧
  StepEffect 0b111100#6 .ii60 (fun a b c d X => ⟨b + rotl32 (a + mixI b c d + X.get 4 + 0xf7537e82) 6, b, c, d⟩) ∧
  StepEffect 0b111101#6 .ii61 (fun a b c d X => ⟨a, b, c, a + rotl32 (d + mixI a b c + X.get 11 + 0xbd3af235) 10⟩) ∧
  StepEffect 0b111110#6 .ii62 (fun a b c d X => ⟨a, b, d + rotl32 (c + mixI d a b + X.get 2 + 0x2ad7d2bb) 15, d⟩) ∧
  StepEffect 0b111111#6 .ii63 (fun a b c d X => ⟨a, c + rotl32 (b + mixI c d a + X.get 9 + 0xeb86d391) 21, c, d⟩)
end

