-- ==== Sys2Proof/Laws/State.lean ====
section
/-! SUPPORT. One lemma per field per named update of the state, each true by `rfl`, so that no proof unfolds a record
update; and what `Working.get` reads after `Working.set`. -/

namespace Sys2Proof.Machine

@[simp] theorem raiseFault_hash (c : Cause) (s : State) : (raiseFault c s).hash = s.hash := rfl
@[simp] theorem raiseFault_bitCount (c : Cause) (s : State) : (raiseFault c s).bitCount = s.bitCount := rfl
@[simp] theorem raiseFault_buffer (c : Cause) (s : State) : (raiseFault c s).buffer = s.buffer := rfl
@[simp] theorem raiseFault_live (c : Cause) (s : State) : (raiseFault c s).live = s.live := rfl
@[simp] theorem raiseFault_fault (c : Cause) (s : State) : (raiseFault c s).fault = true := rfl
@[simp] theorem raiseFault_cause (c : Cause) (s : State) : (raiseFault c s).cause = c := rfl
@[simp] theorem raiseFault_digest (c : Cause) (s : State) : (raiseFault c s).digest = s.digest := rfl
@[simp] theorem raiseFault_transform (c : Cause) (s : State) : (raiseFault c s).transform = s.transform := rfl
@[simp] theorem raiseFault_result (c : Cause) (s : State) : (raiseFault c s).result = .nothing := rfl
@[simp] theorem raiseFault_pending (c : Cause) (s : State) : (raiseFault c s).pending = s.pending := rfl

@[simp] theorem refuseCommand_hash (s : State) : (refuseCommand s).hash = s.hash := rfl
@[simp] theorem refuseCommand_bitCount (s : State) : (refuseCommand s).bitCount = s.bitCount := rfl
@[simp] theorem refuseCommand_buffer (s : State) : (refuseCommand s).buffer = s.buffer := rfl
@[simp] theorem refuseCommand_live (s : State) : (refuseCommand s).live = s.live := rfl
@[simp] theorem refuseCommand_fault (s : State) : (refuseCommand s).fault = s.fault := rfl
@[simp] theorem refuseCommand_cause (s : State) : (refuseCommand s).cause = s.cause := rfl
@[simp] theorem refuseCommand_digest (s : State) : (refuseCommand s).digest = s.digest := rfl
@[simp] theorem refuseCommand_transform (s : State) : (refuseCommand s).transform = s.transform := rfl
@[simp] theorem refuseCommand_result (s : State) : (refuseCommand s).result = .nothing := rfl
@[simp] theorem refuseCommand_pending (s : State) : (refuseCommand s).pending = s.pending := rfl

@[simp] theorem applyReset_hash (rest : List HostAction) : (applyReset rest).hash = ⟨0, 0, 0, 0⟩ := rfl
@[simp] theorem applyReset_bitCount (rest : List HostAction) : (applyReset rest).bitCount = 0 := rfl
@[simp] theorem applyReset_buffer (rest : List HostAction) : (applyReset rest).buffer = [] := rfl
@[simp] theorem applyReset_live (rest : List HostAction) : (applyReset rest).live = false := rfl
@[simp] theorem applyReset_fault (rest : List HostAction) : (applyReset rest).fault = false := rfl
@[simp] theorem applyReset_cause (rest : List HostAction) : (applyReset rest).cause = .none := rfl
@[simp] theorem applyReset_digest (rest : List HostAction) : (applyReset rest).digest = Vector.replicate 16 0 := rfl
@[simp] theorem applyReset_transform (rest : List HostAction) : (applyReset rest).transform = none := rfl
@[simp] theorem applyReset_result (rest : List HostAction) : (applyReset rest).result = .nothing := rfl
@[simp] theorem applyReset_pending (rest : List HostAction) : (applyReset rest).pending = rest := rfl

@[simp] theorem hostReadStatus_hash (s : State) : (hostReadStatus s).hash = s.hash := rfl
@[simp] theorem hostReadStatus_bitCount (s : State) : (hostReadStatus s).bitCount = s.bitCount := rfl
@[simp] theorem hostReadStatus_buffer (s : State) : (hostReadStatus s).buffer = s.buffer := rfl
@[simp] theorem hostReadStatus_live (s : State) : (hostReadStatus s).live = s.live := rfl
@[simp] theorem hostReadStatus_fault (s : State) : (hostReadStatus s).fault = s.fault := rfl
@[simp] theorem hostReadStatus_cause (s : State) : (hostReadStatus s).cause = s.cause := rfl
@[simp] theorem hostReadStatus_digest (s : State) : (hostReadStatus s).digest = s.digest := rfl
@[simp] theorem hostReadStatus_transform (s : State) : (hostReadStatus s).transform = s.transform := rfl
@[simp] theorem hostReadStatus_result (s : State) : (hostReadStatus s).result = .status s.status := rfl
@[simp] theorem hostReadStatus_pending (s : State) : (hostReadStatus s).pending = s.pending := rfl

@[simp] theorem hostReadDigest_hash (s : State) : (hostReadDigest s).hash = s.hash := rfl
@[simp] theorem hostReadDigest_bitCount (s : State) : (hostReadDigest s).bitCount = s.bitCount := rfl
@[simp] theorem hostReadDigest_buffer (s : State) : (hostReadDigest s).buffer = s.buffer := rfl
@[simp] theorem hostReadDigest_live (s : State) : (hostReadDigest s).live = s.live := rfl
@[simp] theorem hostReadDigest_fault (s : State) : (hostReadDigest s).fault = s.fault := rfl
@[simp] theorem hostReadDigest_cause (s : State) : (hostReadDigest s).cause = s.cause := rfl
@[simp] theorem hostReadDigest_digest (s : State) : (hostReadDigest s).digest = s.digest := rfl
@[simp] theorem hostReadDigest_transform (s : State) : (hostReadDigest s).transform = s.transform := rfl
@[simp] theorem hostReadDigest_result (s : State) : (hostReadDigest s).result = .digest s.digest := rfl
@[simp] theorem hostReadDigest_pending (s : State) : (hostReadDigest s).pending = s.pending := rfl

@[simp] theorem takePending_hash (rest : List HostAction) (s : State) : (takePending rest s).hash = s.hash := rfl
@[simp] theorem takePending_bitCount (rest : List HostAction) (s : State) : (takePending rest s).bitCount = s.bitCount := rfl
@[simp] theorem takePending_buffer (rest : List HostAction) (s : State) : (takePending rest s).buffer = s.buffer := rfl
@[simp] theorem takePending_live (rest : List HostAction) (s : State) : (takePending rest s).live = s.live := rfl
@[simp] theorem takePending_fault (rest : List HostAction) (s : State) : (takePending rest s).fault = s.fault := rfl
@[simp] theorem takePending_cause (rest : List HostAction) (s : State) : (takePending rest s).cause = s.cause := rfl
@[simp] theorem takePending_digest (rest : List HostAction) (s : State) : (takePending rest s).digest = s.digest := rfl
@[simp] theorem takePending_transform (rest : List HostAction) (s : State) : (takePending rest s).transform = s.transform := rfl
@[simp] theorem takePending_result (rest : List HostAction) (s : State) : (takePending rest s).result = s.result := rfl
@[simp] theorem takePending_pending (rest : List HostAction) (s : State) : (takePending rest s).pending = rest := rfl

@[simp] theorem initContext_hash (s : State) : (initContext s).hash = initHash := rfl
@[simp] theorem initContext_bitCount (s : State) : (initContext s).bitCount = 0 := rfl
@[simp] theorem initContext_buffer (s : State) : (initContext s).buffer = s.buffer := rfl
@[simp] theorem initContext_live (s : State) : (initContext s).live = true := rfl
@[simp] theorem initContext_fault (s : State) : (initContext s).fault = s.fault := rfl
@[simp] theorem initContext_cause (s : State) : (initContext s).cause = s.cause := rfl
@[simp] theorem initContext_digest (s : State) : (initContext s).digest = s.digest := rfl
@[simp] theorem initContext_transform (s : State) : (initContext s).transform = s.transform := rfl
@[simp] theorem initContext_result (s : State) : (initContext s).result = .nothing := rfl
@[simp] theorem initContext_pending (s : State) : (initContext s).pending = s.pending := rfl

@[simp] theorem finishDigest_hash (s : State) : (finishDigest s).hash = ⟨0, 0, 0, 0⟩ := rfl
@[simp] theorem finishDigest_bitCount (s : State) : (finishDigest s).bitCount = 0 := rfl
@[simp] theorem finishDigest_buffer (s : State) : (finishDigest s).buffer = [] := rfl
@[simp] theorem finishDigest_live (s : State) : (finishDigest s).live = false := rfl
@[simp] theorem finishDigest_fault (s : State) : (finishDigest s).fault = s.fault := rfl
@[simp] theorem finishDigest_cause (s : State) : (finishDigest s).cause = s.cause := rfl
@[simp] theorem finishDigest_digest (s : State) : (finishDigest s).digest = digestOf s.hash := rfl
@[simp] theorem finishDigest_transform (s : State) : (finishDigest s).transform = s.transform := rfl
@[simp] theorem finishDigest_result (s : State) : (finishDigest s).result = .digest (digestOf s.hash) := rfl
@[simp] theorem finishDigest_pending (s : State) : (finishDigest s).pending = s.pending := rfl

@[simp] theorem beginTransform_hash (b : Block) (s : State) : (beginTransform b s).hash = s.hash := rfl
@[simp] theorem beginTransform_bitCount (b : Block) (s : State) : (beginTransform b s).bitCount = s.bitCount := rfl
@[simp] theorem beginTransform_buffer (b : Block) (s : State) : (beginTransform b s).buffer = s.buffer := rfl
@[simp] theorem beginTransform_live (b : Block) (s : State) : (beginTransform b s).live = s.live := rfl
@[simp] theorem beginTransform_fault (b : Block) (s : State) : (beginTransform b s).fault = s.fault := rfl
@[simp] theorem beginTransform_cause (b : Block) (s : State) : (beginTransform b s).cause = s.cause := rfl
@[simp] theorem beginTransform_digest (b : Block) (s : State) : (beginTransform b s).digest = s.digest := rfl
@[simp] theorem beginTransform_transform (b : Block) (s : State) : (beginTransform b s).transform = some (seededRun s.hash b 0) := rfl
@[simp] theorem beginTransform_result (b : Block) (s : State) : (beginTransform b s).result = s.result := rfl
@[simp] theorem beginTransform_pending (b : Block) (s : State) : (beginTransform b s).pending = s.pending := rfl

@[simp] theorem updateShort_hash (data : List Byte) (s : State) (h : fillLevel s.bitCount + data.length ≤ 64) : (updateShort data s h).hash = s.hash := rfl
@[simp] theorem updateShort_bitCount (data : List Byte) (s : State) (h : fillLevel s.bitCount + data.length ≤ 64) : (updateShort data s h).bitCount = addBits s.bitCount data.length := rfl
@[simp] theorem updateShort_buffer (data : List Byte) (s : State) (h : fillLevel s.bitCount + data.length ≤ 64) : (updateShort data s h).buffer = memWrite s.buffer (fillLevel s.bitCount) data h := rfl
@[simp] theorem updateShort_live (data : List Byte) (s : State) (h : fillLevel s.bitCount + data.length ≤ 64) : (updateShort data s h).live = s.live := rfl
@[simp] theorem updateShort_fault (data : List Byte) (s : State) (h : fillLevel s.bitCount + data.length ≤ 64) : (updateShort data s h).fault = s.fault := rfl
@[simp] theorem updateShort_cause (data : List Byte) (s : State) (h : fillLevel s.bitCount + data.length ≤ 64) : (updateShort data s h).cause = s.cause := rfl
@[simp] theorem updateShort_digest (data : List Byte) (s : State) (h : fillLevel s.bitCount + data.length ≤ 64) : (updateShort data s h).digest = s.digest := rfl
@[simp] theorem updateShort_transform (data : List Byte) (s : State) (h : fillLevel s.bitCount + data.length ≤ 64) : (updateShort data s h).transform = s.transform := rfl
@[simp] theorem updateShort_result (data : List Byte) (s : State) (h : fillLevel s.bitCount + data.length ≤ 64) : (updateShort data s h).result = s.result := rfl
@[simp] theorem updateShort_pending (data : List Byte) (s : State) (h : fillLevel s.bitCount + data.length ≤ 64) : (updateShort data s h).pending = s.pending := rfl

@[simp] theorem updateLong_hash (data : List Byte) (s : State) : (updateLong data s).hash = (flushedPath data s).1 := rfl
@[simp] theorem updateLong_bitCount (data : List Byte) (s : State) : (updateLong data s).bitCount = addBits s.bitCount data.length := rfl
@[simp] theorem updateLong_buffer (data : List Byte) (s : State) : (updateLong data s).buffer = memWrite (filledBuffer data s) 0 (flushedPath data s).2 (flushedPath_tail_fits data s) := rfl
@[simp] theorem updateLong_live (data : List Byte) (s : State) : (updateLong data s).live = s.live := rfl
@[simp] theorem updateLong_fault (data : List Byte) (s : State) : (updateLong data s).fault = s.fault := rfl
@[simp] theorem updateLong_cause (data : List Byte) (s : State) : (updateLong data s).cause = s.cause := rfl
@[simp] theorem updateLong_digest (data : List Byte) (s : State) : (updateLong data s).digest = s.digest := rfl
@[simp] theorem updateLong_transform (data : List Byte) (s : State) : (updateLong data s).transform = s.transform := rfl
@[simp] theorem updateLong_result (data : List Byte) (s : State) : (updateLong data s).result = s.result := rfl
@[simp] theorem updateLong_pending (data : List Byte) (s : State) : (updateLong data s).pending = s.pending := rfl

@[simp] theorem updateContext_hash (data : List Byte) (s : State) : (updateContext data s).hash = (updateCore data s).hash := rfl
@[simp] theorem updateContext_bitCount (data : List Byte) (s : State) : (updateContext data s).bitCount = (updateCore data s).bitCount := rfl
@[simp] theorem updateContext_buffer (data : List Byte) (s : State) : (updateContext data s).buffer = (updateCore data s).buffer := rfl
@[simp] theorem updateContext_live (data : List Byte) (s : State) : (updateContext data s).live = (updateCore data s).live := rfl
@[simp] theorem updateContext_fault (data : List Byte) (s : State) : (updateContext data s).fault = (updateCore data s).fault := rfl
@[simp] theorem updateContext_cause (data : List Byte) (s : State) : (updateContext data s).cause = (updateCore data s).cause := rfl
@[simp] theorem updateContext_digest (data : List Byte) (s : State) : (updateContext data s).digest = (updateCore data s).digest := rfl
@[simp] theorem updateContext_transform (data : List Byte) (s : State) : (updateContext data s).transform = (updateCore data s).transform := rfl
@[simp] theorem updateContext_result (data : List Byte) (s : State) : (updateContext data s).result = .nothing := rfl
@[simp] theorem updateContext_pending (data : List Byte) (s : State) : (updateContext data s).pending = (updateCore data s).pending := rfl

@[simp] theorem placeCommand_hash (w : CommandWords) (s : State) : (placeCommand w s).hash = s.hash := rfl
@[simp] theorem placeCommand_bitCount (w : CommandWords) (s : State) : (placeCommand w s).bitCount = s.bitCount := rfl
@[simp] theorem placeCommand_buffer (w : CommandWords) (s : State) : (placeCommand w s).buffer = s.buffer := rfl
@[simp] theorem placeCommand_live (w : CommandWords) (s : State) : (placeCommand w s).live = s.live := rfl
@[simp] theorem placeCommand_fault (w : CommandWords) (s : State) : (placeCommand w s).fault = s.fault := rfl
@[simp] theorem placeCommand_cause (w : CommandWords) (s : State) : (placeCommand w s).cause = s.cause := rfl
@[simp] theorem placeCommand_digest (w : CommandWords) (s : State) : (placeCommand w s).digest = s.digest := rfl
@[simp] theorem placeCommand_transform (w : CommandWords) (s : State) : (placeCommand w s).transform = none := rfl
@[simp] theorem placeCommand_result (w : CommandWords) (s : State) : (placeCommand w s).result = s.result := rfl
@[simp] theorem placeCommand_pending (w : CommandWords) (s : State) : (placeCommand w s).pending = .command w :: s.pending := rfl

@[simp] theorem placeStep_hash (i : BitVec 6) (s : State) : (placeStep i s).hash = s.hash := rfl
@[simp] theorem placeStep_bitCount (i : BitVec 6) (s : State) : (placeStep i s).bitCount = s.bitCount := rfl
@[simp] theorem placeStep_buffer (i : BitVec 6) (s : State) : (placeStep i s).buffer = s.buffer := rfl
@[simp] theorem placeStep_live (i : BitVec 6) (s : State) : (placeStep i s).live = s.live := rfl
@[simp] theorem placeStep_fault (i : BitVec 6) (s : State) : (placeStep i s).fault = s.fault := rfl
@[simp] theorem placeStep_cause (i : BitVec 6) (s : State) : (placeStep i s).cause = s.cause := rfl
@[simp] theorem placeStep_digest (i : BitVec 6) (s : State) : (placeStep i s).digest = s.digest := rfl
@[simp] theorem placeStep_transform (i : BitVec 6) (s : State) : (placeStep i s).transform = some (runAt i s) := rfl
@[simp] theorem placeStep_result (i : BitVec 6) (s : State) : (placeStep i s).result = s.result := rfl
@[simp] theorem placeStep_pending (i : BitVec 6) (s : State) : (placeStep i s).pending = dropResets s.pending := rfl

/-- A working register reads back what was written to it, and the others keep their values. -/
@[simp] theorem working_get_set (r : Working) (m n : WReg) (v : Word) :
    (r.set m v).get n = if n = m then v else r.get n := by
  cases m <;> cases n <;> rfl

end Sys2Proof.Machine
end

