-- ==== Sys2Proof/Laws/Memory.lean ====
section
/-! SUPPORT. The laws of the block buffer: what a byte reads as after a write, that every operation keeps the canonical
form, that two canonical memories with equal bytes are equal, and the two views of the buffer (a byte sequence, a block). -/

namespace Sys2Proof.Machine

/-- A read below every listed address finds nothing. -/
theorem read_of_lt_all (m : Memory) (a : Nat) (h : ∀ p ∈ m, a < p.1) : m.read a = 0 := by
  induction m with
  | nil => rfl
  | cons p m ih =>
    have hp : a < p.1 := h p (by simp)
    unfold Memory.read
    rw [if_neg (by omega)]
    exact ih fun q hq => h q (by simp [hq])

/-- The canonical form of a list is that of its head and its rest. -/
theorem wf_cons (p : Host.Cell) (m : Memory) :
    Memory.wf (p :: m) ↔ (∀ q ∈ m, p.1 < q.1) ∧ p.1 < 64 ∧ p.2 ≠ 0 ∧ Memory.wf m := by
  simp only [Memory.wf, List.pairwise_cons, List.mem_cons, forall_eq_or_imp]
  tauto

/-- The empty memory, in which every byte reads 0, is canonical. -/
theorem wf_nil : Memory.wf [] := by simp [Memory.wf]

/-- Nothing is listed at or above address 64. -/
theorem read_of_ge (m : Memory) (a : Nat) (hm : m.wf) (ha : 64 ≤ a) : m.read a = 0 := by
  induction m with
  | nil => rfl
  | cons p m ih =>
    obtain ⟨-, h64, -, hw⟩ := (wf_cons p m).1 hm
    unfold Memory.read
    rw [if_neg (by omega)]
    exact ih hw

/-- A read after a write: the written byte at its address, the old byte everywhere else. -/
theorem read_write (m : Memory) (a : Nat) (b : Byte) (c : Nat) (hm : m.wf) :
    (Memory.write a b m).read c = if c = a then b else m.read c := by
  induction m with
  | nil =>
    unfold Memory.write
    split
    · rename_i hb
      by_cases hc : c = a <;> simp [Memory.read, hb, hc]
    · by_cases hc : c = a <;> simp [Memory.read, hc]
  | cons p m ih =>
    obtain ⟨x, y⟩ := p
    obtain ⟨hlt, -, -, hw⟩ := (wf_cons (x, y) m).1 hm
    have low : a ≤ x → c = a → Memory.read m c = 0 := fun h h' =>
      read_of_lt_all m c fun q hq => by have := hlt q hq; simp only at this; omega
    unfold Memory.write
    split
    · rename_i hax
      split
      · rename_i hb
        by_cases hc : c = a
        · rw [if_pos hc, hb, Memory.read, if_neg (by omega)]
          exact low (by omega) hc
        · simp [hc]
      · by_cases hc : c = a <;> simp [Memory.read, hc]
    · split
      · rename_i hax
        subst hax
        split
        · rename_i hb
          by_cases hc : c = a
          · simp [hc, hb, ← low (le_refl a) hc]
          · simp [Memory.read, hc]
        · by_cases hc : c = a <;> simp [Memory.read, hc]
      · rename_i h1 h2
        by_cases hcx : c = x
        · simp [Memory.read, hcx, show x ≠ a by omega]
        · simp only [Memory.read, if_neg hcx, ih hw]

/-- Every address listed after a write was listed before or is the one written. -/
theorem mem_write (m : Memory) (a : Nat) (b : Byte) (q : Host.Cell) (hq : q ∈ Memory.write a b m) :
    q ∈ m ∨ (q = (a, b) ∧ b ≠ 0) := by
  induction m with
  | nil =>
    unfold Memory.write at hq
    split at hq <;> simp_all
  | cons p m ih =>
    obtain ⟨x, y⟩ := p
    unfold Memory.write at hq
    split at hq
    · split at hq <;> (simp_all; try tauto)
    · split at hq
      · split at hq <;> (simp_all; try tauto)
      · rcases List.mem_cons.1 hq with rfl | h
        · simp
        · rcases ih h with h | h
          · simp [h]
          · exact .inr h

/-- A write below 64 keeps the canonical form. -/
theorem wf_write (m : Memory) (a : Nat) (b : Byte) (hm : m.wf) (ha : a < 64) : (Memory.write a b m).wf := by
  induction m with
  | nil =>
    unfold Memory.write
    split
    · exact wf_nil
    · rename_i hb
      exact (wf_cons _ _).2 ⟨by simp, ha, hb, wf_nil⟩
  | cons p m ih =>
    obtain ⟨x, y⟩ := p
    obtain ⟨hlt, hx, hy, hw⟩ := (wf_cons (x, y) m).1 hm
    unfold Memory.write
    split
    · rename_i hax
      split
      · exact hm
      · rename_i hb
        refine (wf_cons _ _).2 ⟨fun q hq => ?_, ha, hb, hm⟩
        rcases List.mem_cons.1 hq with rfl | h
        · exact hax
        · exact lt_trans hax (hlt q h)
    · split
      · rename_i hax
        subst hax
        split
        · exact hw
        · rename_i hb
          exact (wf_cons _ _).2 ⟨hlt, ha, hb, hw⟩
      · refine (wf_cons _ _).2 ⟨fun q hq => ?_, hx, hy, ih hw⟩
        rcases mem_write m a b q hq with h | ⟨rfl, -⟩
        · exact hlt q h
        · show x < a
          omega

/-- Writing bytes below 64 keeps the canonical form. -/
theorem wf_writeBytes (v : List Byte) (a : Nat) (m : Memory) (hm : m.wf) (h : a + v.length ≤ 64) :
    (Memory.writeBytes a v m).wf := by
  induction v generalizing a m with
  | nil => exact hm
  | cons b v ih =>
    rw [List.length_cons] at h
    exact ih (a + 1) _ (wf_write m a b hm (by omega)) (by omega)

/-- A read after writing the bytes `v` at `a`. -/
theorem read_writeBytes (v : List Byte) (a : Nat) (m : Memory) (c : Nat) (hm : m.wf) (h : a + v.length ≤ 64) :
    (Memory.writeBytes a v m).read c = if a ≤ c ∧ c < a + v.length then v.getD (c - a) 0 else m.read c := by
  induction v generalizing a m with
  | nil => simp [Memory.writeBytes]
  | cons b v ih =>
    rw [List.length_cons] at h
    rw [Memory.writeBytes, ih (a + 1) _ (wf_write m a b hm (by omega)) (by omega), read_write m a b c hm]
    by_cases hc : c = a
    · subst hc
      rw [if_neg (by omega), if_pos rfl, if_pos (by simp)]
      simp [List.getD_eq_getElem?_getD]
    · by_cases hr : a + 1 ≤ c ∧ c < a + 1 + v.length
      · rw [if_pos hr, if_pos ⟨by omega, by rw [List.length_cons]; omega⟩]
        obtain ⟨k, hk⟩ : ∃ k, c - a = k + 1 := ⟨c - a - 1, by omega⟩
        rw [hk, show c - (a + 1) = k by omega, List.getD_cons_succ]
      · rw [if_neg hr, if_neg hc, if_neg (by rw [List.length_cons]; omega)]

/-- `MemWrite` keeps the canonical form. -/
theorem wf_memWrite (m : Memory) (a : Nat) (v : List Byte) (h : a + v.length ≤ 64) (hm : m.wf) :
    (memWrite m a v h).wf := wf_writeBytes v a m hm h

/-- What a byte reads as after `MemWrite` (R11). -/
theorem read_memWrite (m : Memory) (a : Nat) (v : List Byte) (h : a + v.length ≤ 64) (c : Nat) (hm : m.wf) :
    (memWrite m a v h).read c = if a ≤ c ∧ c < a + v.length then v.getD (c - a) 0 else m.read c :=
  read_writeBytes v a m c hm h

/-- Writing no bytes changes nothing (R89). -/
@[simp] theorem memWrite_nil (m : Memory) (a : Nat) (h : a + ([] : List Byte).length ≤ 64) : memWrite m a [] h = m := rfl

/-- Two canonical memories with the same byte at every address are the same data. -/
theorem memory_ext (m n : Memory) (hm : m.wf) (hn : n.wf) (h : ∀ a, m.read a = n.read a) : m = n := by
  induction m generalizing n with
  | nil =>
    cases n with
    | nil => rfl
    | cons q n =>
      have := h q.1
      simp only [Memory.read, if_true] at this
      exact absurd this.symm ((wf_cons q n).1 hn).2.2.1
  | cons p m ih =>
    obtain ⟨hpm, -, hp0, hwm⟩ := (wf_cons p m).1 hm
    cases n with
    | nil =>
      have := h p.1
      simp only [Memory.read, if_true] at this
      exact absurd this hp0
    | cons q n =>
      obtain ⟨hqn, -, hq0, hwn⟩ := (wf_cons q n).1 hn
      have key : p.1 = q.1 := by
        by_contra hne
        rcases Nat.lt_or_gt_of_ne hne with hlt | hlt
        · have := h p.1
          simp only [Memory.read, if_true, if_neg hne] at this
          rw [read_of_lt_all n p.1 fun r hr => lt_trans hlt (hqn r hr)] at this
          exact hp0 this
        · have := h q.1
          simp only [Memory.read, if_true, if_neg (Ne.symm hne)] at this
          rw [read_of_lt_all m q.1 fun r hr => lt_trans hlt (hpm r hr)] at this
          exact hq0 this.symm
      have hval : p.2 = q.2 := by
        have := h p.1
        simpa only [Memory.read, if_true, if_pos key] using this
      have hpq : p = q := Prod.ext key hval
      subst hpq
      rw [ih n hwm hwn]
      intro a
      by_cases ha : a = p.1
      · rw [read_of_lt_all m a fun r hr => ha ▸ hpm r hr, read_of_lt_all n a fun r hr => ha ▸ hqn r hr]
      · have := h a
        simpa only [Memory.read, if_neg ha] using this

/-- `MemRead` returns as many bytes as it is asked for. -/
@[simp] theorem length_memRead (m : Memory) (a n : Nat) (h : a + n ≤ 64) : (memRead m a n h).length = n := by
  simp [memRead]

/-- Byte `j` of the buffer seen as a block is the byte at address `j`. -/
theorem bufferBlock_get (m : Memory) (j : Fin 64) : (bufferBlock m).get j = m.read j := by
  simp [bufferBlock, Block.ofList, memRead, Vector.get, Fin.cast]

/-- Byte `j` of the block cut from a sequence is its byte `j`. -/
theorem ofList_get (l : List Byte) (h : 64 ≤ l.length) (j : Fin 64) : (Block.ofList l h).get j = l.getD j 0 := by
  have : j.val < l.length := by omega
  simp [Block.ofList, Vector.get, List.getD_eq_getElem?_getD, this, Fin.cast]

/-- Two blocks with the same bytes are equal. -/
theorem block_ext (b c : Block) (h : ∀ j : Fin 64, b.get j = c.get j) : b = c := by
  apply Vector.ext
  intro i hi
  exact h ⟨i, hi⟩

end Sys2Proof.Machine
end

