-- ==== Sys2Proof/Laws/Update.lean ====
section
/-! SUPPORT. The laws of the update datapath: the fill level after an increment, the valid bytes as a sequence, the direct
path as a fold over blocks, and what each branch of `UpdateCore` does to the hash state and to every byte of the buffer. -/

namespace Sys2Proof.Machine

open Sys2Proof.Safety

/-! ## The counter -/

/-- `index = (bit_count >> 3) mod 64` on numbers (R24). -/
theorem fillLevel_eq (c : Count) : fillLevel c = c.toNat / 8 % 64 := by
  simp [fillLevel, BitVec.extractLsb'_toNat, Nat.shiftRight_eq_div_pow]

/-- The increment on numbers (R87). -/
theorem addBits_toNat (c : Count) (n : Nat) : (addBits c n).toNat = (c.toNat + 8 * n) % 2 ^ 64 := by
  simp [addBits]

/-- The fill level after the increment (R87). -/
theorem fillLevel_addBits (c : Count) (n : Nat) : fillLevel (addBits c n) = (fillLevel c + n) % 64 := by
  rw [fillLevel_eq, fillLevel_eq, addBits_toNat]
  omega

/-- Increments add up (R92). -/
theorem addBits_addBits (c : Count) (m n : Nat) : addBits (addBits c m) n = addBits c (m + n) := by
  apply BitVec.eq_of_toNat_eq
  simp only [addBits_toNat]
  omega

/-- A whole number of bytes stays one (R24, R27). -/
theorem addBits_wholeBytes (c : Count) (n : Nat) (h : c.toNat % 8 = 0) : (addBits c n).toNat % 8 = 0 := by
  rw [addBits_toNat]
  omega

/-! ## Byte sequences and blocks -/

/-- There are as many valid bytes as the fill level says (R27 I2). -/
@[simp] theorem length_validBytes (s : State) : (validBytes s).length = fillLevel s.bitCount := by
  simp [validBytes]

/-- The valid bytes do not depend on the result. -/
@[simp] theorem validBytes_updateContext (data : List Byte) (s : State) :
    validBytes (updateContext data s) = validBytes (updateCore data s) := rfl

/-- Valid byte `j` is the buffer byte at address `j` (R25). -/
theorem validBytes_getD (s : State) (j : Nat) (h : j < fillLevel s.bitCount) : (validBytes s).getD j 0 = s.buffer.read j := by
  simp [validBytes, List.getD_eq_getElem?_getD, h]

/-- The valid bytes are determined by the fill level and the bytes below it (R25). -/
theorem validBytes_eq (s : State) (l : List Byte) (hl : l.length = fillLevel s.bitCount)
    (h : ∀ j, j < l.length → s.buffer.read j = l.getD j 0) : validBytes s = l := by
  apply List.ext_getElem (by simp [hl])
  intro j h1 h2
  have := h j h2
  simp only [length_validBytes] at h1
  simpa [validBytes, List.getD_eq_getElem?_getD, h2] using this

/-- Byte `j` of block `m` of a message. -/
theorem blockAt_get (M : List Byte) (m : Nat) (j : Fin 64) : (blockAt M m).get j = M.getD (64 * m + j) 0 := by
  simp [blockAt, Vector.get, Fin.cast]

/-- Dropping whole blocks renumbers the blocks. -/
theorem blockAt_drop (M : List Byte) (k m : Nat) : blockAt (M.drop (64 * k)) m = blockAt M (k + m) := by
  apply block_ext
  intro j
  rw [blockAt_get, blockAt_get]
  simp only [List.getD_eq_getElem?_getD, List.getElem?_drop]
  congr 2
  omega

/-- A block that lies inside a prefix does not depend on what follows the prefix. -/
theorem blockAt_append (M N : List Byte) (m : Nat) (h : 64 * (m + 1) ≤ M.length) : blockAt (M ++ N) m = blockAt M m := by
  apply block_ext
  intro j
  rw [blockAt_get, blockAt_get]
  have : 64 * m + j.val < M.length := by omega
  simp [List.getD_eq_getElem?_getD, List.getElem?_append_left this]

/-- The block cut from the front of a sequence is its block 0. -/
theorem ofList_eq_blockAt (l : List Byte) (h : 64 ≤ l.length) : Block.ofList l h = blockAt l 0 := by
  apply block_ext
  intro j
  rw [ofList_get, blockAt_get]
  simp

/-! ## Chains of transforms -/

/-- No block, no transform. -/
@[simp] theorem chain_zero (h : Hash) (M : List Byte) : chain h M 0 = h := rfl

/-- The last block of a chain (R109). -/
theorem chain_succ (h : Hash) (M : List Byte) (n : Nat) : chain h M (n + 1) = transform (chain h M n) (blockAt M n) := by
  simp [chain, List.range_succ, List.foldl_append]

/-- A chain over the first blocks goes on over the rest (R109). -/
theorem chain_add (h : Hash) (M : List Byte) (k n : Nat) : chain h M (k + n) = chain (chain h M k) (M.drop (64 * k)) n := by
  induction n with
  | zero => simp
  | succ n ih => rw [← Nat.add_assoc, chain_succ, chain_succ, ih, blockAt_drop]

/-- A chain of one block. -/
@[simp] theorem chain_one (h : Hash) (M : List Byte) : chain h M 1 = transform h (blockAt M 0) := by
  rw [chain_succ, chain_zero]

/-- A chain inside a prefix does not depend on what follows the prefix. -/
theorem chain_append (h : Hash) (M N : List Byte) (n : Nat) (hn : 64 * n ≤ M.length) : chain h (M ++ N) n = chain h M n := by
  induction n with
  | zero => simp
  | succ n ih => rw [chain_succ, chain_succ, ih (by omega), blockAt_append M N n (by omega)]

/-- The direct path over `n` blocks is the chain over them, and leaves what follows (R47, R89). -/
theorem directBlocks_eq (n : Nat) (h : Hash) (rest : List Byte) (hn : 64 * n ≤ rest.length) :
    directBlocks n h rest = (chain h rest n, rest.drop (64 * n)) := by
  induction n generalizing h rest with
  | zero => simp [directBlocks]
  | succ n ih =>
    rw [directBlocks, dif_pos (by omega), ih _ _ (by rw [List.length_drop]; omega), ofList_eq_blockAt, List.drop_drop,
      Nat.add_comm n 1, chain_add, chain_one]
    rw [Nat.mul_add, Nat.mul_one]

/-- The direct path in closed form (R89). -/
theorem directPath_eq (h : Hash) (rest : List Byte) :
    directPath h rest = (chain h rest (rest.length / 64), rest.drop (64 * (rest.length / 64))) :=
  directBlocks_eq _ _ _ (by omega)

/-! ## The two branches -/

/-- A byte of the filled buffer: the valid bytes followed by the payload (R86, R89). -/
theorem filledBuffer_read (data : List Byte) (s : State) (hw : s.buffer.wf) (hd : 64 - fillLevel s.bitCount ≤ data.length)
    (j : Nat) (hj : j < 64) : (filledBuffer data s).read j = (validBytes s ++ data).getD j 0 := by
  have hf := fillLevel_lt s.bitCount
  rw [filledBuffer, read_memWrite _ _ _ _ _ hw, List.length_take]
  by_cases hc : j < fillLevel s.bitCount
  · rw [if_neg (by omega), ← validBytes_getD s j hc]
    have : j < (validBytes s).length := by simpa using hc
    simp [List.getD_eq_getElem?_getD, List.getElem?_append_left this]
  · rw [if_pos (by omega)]
    have h1 : (validBytes s).length ≤ j := by simp; omega
    have h2 : j - fillLevel s.bitCount < 64 - fillLevel s.bitCount := by omega
    simp [List.getD_eq_getElem?_getD, List.getElem?_append_right h1, h2]

/-- The filled buffer is canonical. -/
theorem wf_filledBuffer (data : List Byte) (s : State) (hw : s.buffer.wf) : (filledBuffer data s).wf :=
  wf_memWrite _ _ _ _ hw

/-- The block that is flushed is the first block of the valid bytes followed by the payload (R89). -/
theorem flushedBlock_eq (data : List Byte) (s : State) (hw : s.buffer.wf) (hd : 64 - fillLevel s.bitCount ≤ data.length) :
    bufferBlock (filledBuffer data s) = blockAt (validBytes s ++ data) 0 := by
  apply block_ext
  intro j
  rw [bufferBlock_get, filledBuffer_read data s hw hd j j.isLt, blockAt_get]
  simp

/-- The payload after the flush is the valid bytes followed by the payload, less their first block (R89). -/
theorem drop_deficit (data : List Byte) (s : State) :
    data.drop (64 - fillLevel s.bitCount) = (validBytes s ++ data).drop 64 := by
  have hf := fillLevel_lt s.bitCount
  have h0 : (validBytes s).drop 64 = [] := List.drop_eq_nil_of_le (by rw [length_validBytes]; omega)
  rw [List.drop_append, h0, length_validBytes, List.nil_append]

/-- The long branch's hash state and tail in closed form: `T = floor((index + n) / 64)` transforms (R89). -/
theorem flushedPath_eq (data : List Byte) (s : State) (hw : s.buffer.wf) (hd : 64 - fillLevel s.bitCount ≤ data.length) :
    flushedPath data s =
      (chain s.hash (validBytes s ++ data) ((fillLevel s.bitCount + data.length) / 64),
        (validBytes s ++ data).drop (64 * ((fillLevel s.bitCount + data.length) / 64))) := by
  have hlen : (validBytes s ++ data).length = fillLevel s.bitCount + data.length := by simp
  have hT : (fillLevel s.bitCount + data.length) / 64 = 1 + ((validBytes s ++ data).drop 64).length / 64 := by
    rw [List.length_drop, hlen]
    have := fillLevel_lt s.bitCount
    omega
  rw [flushedPath, directPath_eq, flushedBlock_eq data s hw hd, drop_deficit, hT, chain_add, chain_one, Nat.mul_one,
    List.drop_drop, Nat.mul_add, Nat.mul_one]

/-- The short branch (R88): what every byte of the buffer reads as. -/
theorem updateShort_read (data : List Byte) (s : State) (h : fillLevel s.bitCount + data.length ≤ 64) (hw : s.buffer.wf)
    (j : Nat) : (updateShort data s h).buffer.read j =
      if fillLevel s.bitCount ≤ j ∧ j < fillLevel s.bitCount + data.length then data.getD (j - fillLevel s.bitCount) 0
      else s.buffer.read j := by
  rw [updateShort_buffer, read_memWrite _ _ _ _ _ hw]

/-- The long branch (R89): a byte of the tail. -/
theorem updateLong_read_tail (data : List Byte) (s : State) (hw : s.buffer.wf)
    (hd : 64 - fillLevel s.bitCount ≤ data.length) (j : Nat) (hj : j < (fillLevel s.bitCount + data.length) % 64) :
    (updateLong data s).buffer.read j =
      (validBytes s ++ data).getD (64 * ((fillLevel s.bitCount + data.length) / 64) + j) 0 := by
  have hl : (validBytes s ++ data).length = fillLevel s.bitCount + data.length := by simp
  rw [updateLong_buffer, read_memWrite _ _ _ _ _ (wf_filledBuffer data s hw), flushedPath_eq data s hw hd, if_pos]
  · simp [List.getD_eq_getElem?_getD, List.getElem?_drop]
  · rw [List.length_drop, hl]
    omega

/-- The long branch (R89): a byte above the tail keeps the value of the flushed block. -/
theorem updateLong_read_above (data : List Byte) (s : State) (hw : s.buffer.wf)
    (hd : 64 - fillLevel s.bitCount ≤ data.length) (j : Nat) (hj : (fillLevel s.bitCount + data.length) % 64 ≤ j)
    (h64 : j < 64) : (updateLong data s).buffer.read j = (validBytes s ++ data).getD j 0 := by
  have hl : (validBytes s ++ data).length = fillLevel s.bitCount + data.length := by simp
  rw [updateLong_buffer, read_memWrite _ _ _ _ _ (wf_filledBuffer data s hw), flushedPath_eq data s hw hd, if_neg,
    filledBuffer_read data s hw hd j h64]
  rw [List.length_drop, hl]
  omega

/-- `UpdateCore` writes the hash state, the count and the buffer, and nothing else (R86). -/
theorem updateCore_frame (data : List Byte) (s : State) :
    updateCore data s = { s with
      hash := (updateCore data s).hash, bitCount := addBits s.bitCount data.length,
      buffer := (updateCore data s).buffer } := by
  unfold updateCore
  split <;> rfl

/-- The count after `UpdateCore` (R87). -/
theorem updateCore_bitCount (data : List Byte) (s : State) :
    (updateCore data s).bitCount = addBits s.bitCount data.length := by
  rw [updateCore_frame]

/-- `UpdateCore` keeps the canonical form. -/
theorem wf_updateCore (data : List Byte) (s : State) (hw : s.buffer.wf) : (updateCore data s).buffer.wf := by
  unfold updateCore
  split
  · rw [updateShort_buffer]
    exact wf_memWrite _ _ _ _ hw
  · rw [updateLong_buffer]
    exact wf_memWrite _ _ _ _ (wf_filledBuffer data s hw)

/-- The hash state after `UpdateCore`, on either branch: the chain over the full blocks of the valid bytes followed by the
payload (R88, R89). -/
theorem updateCore_hash (data : List Byte) (s : State) (hw : s.buffer.wf) :
    (updateCore data s).hash = chain s.hash (validBytes s ++ data) ((fillLevel s.bitCount + data.length) / 64) := by
  unfold updateCore
  split
  · rename_i h
    rw [show (fillLevel s.bitCount + data.length) / 64 = 0 by omega]
    rfl
  · rename_i h
    rw [updateLong_hash, flushedPath_eq data s hw (by omega)]

/-- The valid bytes after `UpdateCore`, on either branch: what the full blocks leave (R88, R89). -/
theorem updateCore_validBytes (data : List Byte) (s : State) (hw : s.buffer.wf) :
    validBytes (updateCore data s) =
      (validBytes s ++ data).drop (64 * ((fillLevel s.bitCount + data.length) / 64)) := by
  have hf := fillLevel_lt s.bitCount
  have hlen : (validBytes s ++ data).length = fillLevel s.bitCount + data.length := by simp
  apply validBytes_eq
  · rw [updateCore_bitCount, fillLevel_addBits, List.length_drop, hlen]
    omega
  · intro j hj
    rw [List.length_drop, hlen] at hj
    unfold updateCore
    split
    · rename_i h
      rw [show (fillLevel s.bitCount + data.length) / 64 = 0 by omega, updateShort_read data s (by omega) hw]
      by_cases hc : j < fillLevel s.bitCount
      · rw [if_neg (by omega), ← validBytes_getD s j hc]
        have : j < (validBytes s).length := by simpa using hc
        simp [List.getD_eq_getElem?_getD, List.getElem?_append_left this]
      · rw [if_pos (by omega)]
        have h1 : (validBytes s).length ≤ j := by simp; omega
        simp [List.getD_eq_getElem?_getD, List.getElem?_append_right h1]
    · rename_i h
      rw [updateLong_read_tail data s hw (by omega) j (by omega)]
      simp [List.getD_eq_getElem?_getD, List.getElem?_drop]

end Sys2Proof.Machine
end

