-- ==== Sys2Proof/Laws/Exec.lean ====
section
/-! SUPPORT. What `exec` and `step` can do, said once: the meaning of a step index, and the inversion of `exec` and of `step`
("if it answers a next state, then one of these cases holds"). -/

namespace Sys2Proof.Machine

open Sys2Proof.Safety

/-! ## Steps of the transform -/

/-- A fact about every step index is 64 facts about numerals. -/
theorem forall_index (P : BitVec 6 → Prop) (h : ∀ n, n < 64 → P (BitVec.ofNat 6 n)) (i : BitVec 6) : P i := by
  have := h i.toNat i.isLt
  rwa [BitVec.ofNat_toNat, BitVec.setWidth_eq] at this

/-- The effect of step `i` on the working registers, from its own rule. -/
def stepFn (i : BitVec 6) : MessageWords → Working → Working := allSteps.getD i.toNat fun _ r => r

/-- Every index executes the step of its own rule (R64, R107). -/
theorem exec_decodeStep (i : BitVec 6) (s : State) : exec (decodeStep i) s = inTransform i (stepFn i) s := by
  induction i using forall_index with
  | h n h => interval_cases n <;> rfl

/-- A step in a transform in progress changes the working registers only. -/
theorem inTransform_some (i : BitVec 6) (f : MessageWords → Working → Working) (s : State) (t : TransformRun)
    (h : s.transform = some t) :
    inTransform i f s = .next { s with transform := some { t with regs := f t.x t.regs } } := by
  rw [inTransform, h]

/-- A step outside a transform is refused. -/
theorem inTransform_none (i : BitVec 6) (f : MessageWords → Working → Working) (s : State) (h : s.transform = none) :
    inTransform i f s = .refused (.noTransformInProgress i) := by
  rw [inTransform, h]

/-- Every instruction of format `STEP` is the decoding of its index. -/
theorem isStep_decodeStep (i : Instr) (h : i.isStep = true) : ∃ j, encode i = .step j ∧ decodeStep j = i := by
  cases i <;> first
    | exact ⟨_, rfl, rfl⟩
    | cases h

/-- Every step index decodes to an instruction of format `STEP`. -/
theorem decodeStep_isStep (i : BitVec 6) : (decodeStep i).isStep = true := by
  induction i using forall_index with
  | h n h => interval_cases n <;> rfl

/-- Distinct indexes are distinct instructions: encoding a decoded index gives it back. -/
theorem encode_decodeStep (i : BitVec 6) : encode (decodeStep i) = .step i := by
  induction i using forall_index with
  | h n h => interval_cases n <;> rfl

/-! ## Inversion of `exec` -/

/-- The four commands never stop; what each next state is. -/
theorem exec_command (i : Instr) (s : State) (h : i.isStep = false) :
    (s.fault = true ∧ exec i s = .next (refuseCommand s)) ∨
    (s.fault = false ∧
      ((i = .init ∧ exec i s = .next (initContext s)) ∨
       (∃ data, i = .update data ∧ s.live = true ∧ exec i s = .next (updateContext data s)) ∨
       (∃ data, i = .update data ∧ s.live = false ∧ exec i s = .next (raiseFault .misuseUpdate s)) ∨
       (i = .final ∧ s.live = true ∧ exec i s = .next (finishDigest (padAndFlush s))) ∨
       (i = .final ∧ s.live = false ∧ exec i s = .next (raiseFault .misuseFinal s)) ∨
       (i = .reserved3 ∧ exec i s = .next (raiseFault .illegalOp s)))) := by
  cases i with
  | init => cases hf : s.fault <;> simp [exec, execInit, hf]
  | update data => cases hf : s.fault <;> cases hl : s.live <;> simp [exec, execUpdate, hf, hl]
  | final => cases hf : s.fault <;> cases hl : s.live <;> simp [exec, execFinal, hf, hl]
  | reserved3 => cases hf : s.fault <;> simp [exec, execReserved3, hf]
  | _ => cases h

/-- `FINAL`'s padding and trailer write the hash state, the count and the buffer, and nothing else (R190). -/
theorem padAndFlush_frame (s : State) :
    padAndFlush s = { s with
      hash := (padAndFlush s).hash, bitCount := (padAndFlush s).bitCount, buffer := (padAndFlush s).buffer } := by
  unfold padAndFlush
  rw [updateCore_frame, updateCore_frame (padding _)]

/-! ## Inversion of `step` -/

/-- What the machine takes up, read from the action list and the transform. -/
theorem nextMove_cases (s : State) :
    (∃ w rest, s.pending = .reset w :: rest ∧ nextMove s = .reset rest) ∨
    (∃ t, s.transform = some t ∧ noResetFirst s.pending ∧ nextMove s = .step t.i) ∨
    (s.transform = none ∧
      ((s.pending = [] ∧ nextMove s = .idle) ∨
       (∃ rest, s.pending = .readStatus :: rest ∧ nextMove s = .readStatus rest) ∨
       (∃ rest, s.pending = .readDigest :: rest ∧ nextMove s = .readDigest rest) ∨
       (∃ w rest, s.pending = .command w :: rest ∧ nextMove s = .command w rest))) := by
  unfold nextMove
  cases hp : s.pending with
  | nil => cases ht : s.transform <;> simp [noResetFirst]
  | cons a rest => cases a <;> cases ht : s.transform <;> simp [noResetFirst]

/-- Every kind of step, with its outcome. -/
theorem step_cases (s : State) :
    (∃ w rest, s.pending = .reset w :: rest ∧ step s = .next (applyReset rest)) ∨
    (∃ t, s.transform = some t ∧ noResetFirst s.pending ∧
      step s = .next (advanceSequencer { s with transform := some { t with regs := stepFn t.i t.x t.regs } })) ∨
    (s.transform = none ∧
      ((s.pending = [] ∧ step s = .next s) ∨
       (∃ rest, s.pending = .readStatus :: rest ∧ step s = .next (hostReadStatus (takePending rest s))) ∨
       (∃ rest, s.pending = .readDigest :: rest ∧ step s = .next (hostReadDigest (takePending rest s))) ∨
       (∃ w rest, s.pending = .command w :: rest ∧ step s = runCommand w (takePending rest s)))) := by
  rcases nextMove_cases s with ⟨w, rest, hp, h⟩ | ⟨t, ht, hp, h⟩ | ⟨ht, h⟩
  · exact .inl ⟨w, rest, hp, by rw [step, h]⟩
  · refine .inr (.inl ⟨t, ht, hp, ?_⟩)
    rw [step, h]
    simp only
    rw [exec_decodeStep, inTransform_some _ _ _ _ ht, afterStep]
  · refine .inr (.inr ⟨ht, ?_⟩)
    rcases h with ⟨hp, h⟩ | ⟨rest, hp, h⟩ | ⟨rest, hp, h⟩ | ⟨w, rest, hp, h⟩
    · exact .inl ⟨hp, by rw [step, h]⟩
    · exact .inr (.inl ⟨rest, hp, by rw [step, h]⟩)
    · exact .inr (.inr (.inl ⟨rest, hp, by rw [step, h]⟩))
    · exact .inr (.inr (.inr ⟨w, rest, hp, by rw [step, h]⟩))

/-- A command taken up is a command executed, or words the decoder rejects. -/
theorem runCommand_cases (w : CommandWords) (s : State) :
    (∃ i, i.isStep = false ∧ decode (.command w) = .ok i ∧ runCommand w s = exec i s) ∨
    (∃ e, decode (.command w) = .error e ∧ runCommand w s = rejectWords e s) := by
  cases h : decode (.command w) with
  | error e => exact .inr ⟨e, rfl, by rw [runCommand, h]⟩
  | ok i =>
    refine .inl ⟨i, ?_, rfl, by rw [runCommand, h]⟩
    simp only [decode, decodeWith, decodeCommandWith, withoutPayload] at h
    split at h
    · split at h <;> cases h; rfl
    · split at h
      · split at h <;> cases h; rfl
      · split at h
        · split at h <;> cases h; rfl
        · split at h <;> cases h; rfl

end Sys2Proof.Machine
end

