-- ==== Sys2Proof/Laws/Transform.lean ====
section
/-! SUPPORT. The laws of the transform's sequencer: the 64 steps as a list indexed by the step index, the transform as a fold
over the indexes, one machine step inside a transform, and the last step of a run. -/

namespace Sys2Proof.Machine

open Sys2Proof.Safety

/-- The 64 steps, in order, are the steps of the indexes 0 to 63 (R64, R100). -/
theorem allSteps_eq : allSteps = (List.range 64).map fun k => stepFn (BitVec.ofNat 6 k) := rfl

/-- The 64 steps as a fold over the step index (R28, R100). -/
theorem runSteps_eq (x : MessageWords) (r : Working) :
    runSteps x r = (List.range 64).foldl (fun r k => stepFn (BitVec.ofNat 6 k) x r) r := by
  rw [runSteps, allSteps_eq, List.foldl_map]

/-- The transform as a fold over the step index (R100). -/
theorem transform_eq (h : Hash) (b : Block) :
    transform h b = addBack h
      ((List.range 64).foldl (fun r k => stepFn (BitVec.ofNat 6 k) (messageWords b) r) (seedWorking h)) := by
  rw [transform, runSteps_eq]

/-- One machine step while a transform is in progress (R28). -/
theorem step_of_transform (s : State) (t : TransformRun) (ht : s.transform = some t) (hn : noResetFirst s.pending) :
    step s = .next (advanceSequencer { s with transform := some { t with regs := stepFn t.i t.x t.regs } }) := by
  rcases step_cases s with ⟨w, r, hp, _⟩ | ⟨t', ht', _, hs⟩ | ⟨h', _⟩
  · exact absurd hp (hn _ _)
  · rw [ht] at ht'
    cases ht'
    exact hs
  · rw [ht] at h'
    cases h'

/-- A run of `k + 1` steps is a run of `k` steps and one more. -/
theorem iterate_succ_last (k : Nat) (s t : State) (h : iterate k s = .next t) : iterate (k + 1) s = step t := by
  induction k generalizing s with
  | zero =>
    cases h
    simp only [iterate]
    cases step t <;> rfl
  | succ k ih =>
    rw [iterate] at h ⊢
    cases hs : step s with
    | next u =>
      rw [hs] at h
      exact ih _ h
    | fault r =>
      rw [hs] at h
      cases h
    | refused r =>
      rw [hs] at h
      cases h

end Sys2Proof.Machine
end

