-- ==== Sys2Proof/Tests/Slice0.lean ====
section
/-! SUPPORT. Small tests of the model, and one witness for the hypotheses of every obligation. Expected values come from the
spec: 30_encoding.md (encodings), 95_test_vectors.md (sections 1 to 5) and the rules named in each comment. -/

namespace Sys2Proof.Tests

open Sys2Proof Sys2Proof.Machine Sys2Proof.Safety

/-! ## Helpers -/

/-- A next state that has a property. -/
def nextIs (o : Outcome) (p : State → Bool) : Bool :=
  match o with
  | .next s => p s
  | .fault _ => false
  | .refused _ => false

/-- A refusal for a given reason. -/
def refusedIs (o : Outcome) (r : Refusal) : Bool :=
  match o with
  | .next _ => false
  | .fault _ => false
  | .refused q => decide (q = r)

/-- A live context that has taken `n` bytes `0x61`, `n` at most 63. -/
def filled (n : Nat) : State :=
  { State.reset with
    hash := initHash, bitCount := BitVec.ofNat 64 (8 * n), buffer := (List.range n).map fun a => (a, 0x61#8), live := true }

/-- A live context that has taken `"abc"`. -/
def afterAbc : State :=
  { State.reset with hash := initHash, bitCount := 24, buffer := [(0, 0x61), (1, 0x62), (2, 0x63)], live := true }

/-- The engine after an UPDATE on a context that is not live (program P5, line 1). -/
def faulted : State := { State.reset with fault := true, cause := .misuseUpdate }

/-- The block `00 01 .. 3f` of trace T1. -/
def blockT1 : Block := Vector.ofFn fun j => BitVec.ofNat 8 j.val

/-- A live context with the transform of trace T1 in progress, at step `i` with the given working registers. -/
def inT1 (i : BitVec 6) (r : Working) : State :=
  { State.reset with hash := initHash, live := true, transform := some ⟨r, messageWords blockT1, i⟩ }

/-- Whether step `i` takes the working registers `r` to `q` in trace T1, and changes nothing else. -/
def stepsTo (row : BitVec 6 × Working × Working) : Bool :=
  nextIs (exec (decodeStep row.1) (inT1 row.1 row.2.1)) fun t => decide (t = inT1 row.1 row.2.2)

/-! ## Well-formedness: the one check is the payload's length (R6, R62) -/

theorem test_wf_refuses_long_payload : Instr.wfWith (some 2) (.update [1, 2, 3]) = false := by decide

theorem test_wf_accepts_payload_at_cap : Instr.wfWith (some 3) (.update [1, 2, 3]) = true := by decide

/-! ## Decoding: words written out from the spec's encoding (R61, R64) -/

theorem test_decode_init : decode (.command ⟨0b00#2, []⟩) = .ok .init := by decide

theorem test_decode_update : decode (.command ⟨0b01#2, [0x61, 0x62, 0x63]⟩) = .ok (.update [0x61, 0x62, 0x63]) := by decide

theorem test_decode_update_empty : decode (.command ⟨0b01#2, []⟩) = .ok (.update []) := by decide

theorem test_decode_final : decode (.command ⟨0b10#2, []⟩) = .ok .final := by decide

theorem test_decode_reserved3 : decode (.command ⟨0b11#2, []⟩) = .ok .reserved3 := by decide

theorem test_decode_rejects_payload_after_init :
    decode (.command ⟨0b00#2, [0x61]⟩) = .error (.payloadNotAllowed 0b00#2) := by decide

theorem test_decode_rejects_payload_over_cap :
    decodeWith (some 2) (.command ⟨0b01#2, [1, 2, 3]⟩) = .error (.payloadTooLong 3) := by decide

/-- The sixteen indexes of round 1, bit by bit (R64). -/
theorem test_decode_round1 : ([
    (0b000000#6, .ff00), (0b000001#6, .ff01), (0b000010#6, .ff02), (0b000011#6, .ff03),
    (0b000100#6, .ff04), (0b000101#6, .ff05), (0b000110#6, .ff06), (0b000111#6, .ff07),
    (0b001000#6, .ff08), (0b001001#6, .ff09), (0b001010#6, .ff10), (0b001011#6, .ff11),
    (0b001100#6, .ff12), (0b001101#6, .ff13), (0b001110#6, .ff14), (0b001111#6, .ff15)] :
    List (BitVec 6 × Instr)).all (fun p => decide (decode (.step p.1) = .ok p.2)) = true := by decide

/-- The sixteen indexes of round 2, bit by bit (R64). -/
theorem test_decode_round2 : ([
    (0b010000#6, .gg16), (0b010001#6, .gg17), (0b010010#6, .gg18), (0b010011#6, .gg19),
    (0b010100#6, .gg20), (0b010101#6, .gg21), (0b010110#6, .gg22), (0b010111#6, .gg23),
    (0b011000#6, .gg24), (0b011001#6, .gg25), (0b011010#6, .gg26), (0b011011#6, .gg27),
    (0b011100#6, .gg28), (0b011101#6, .gg29), (0b011110#6, .gg30), (0b011111#6, .gg31)] :
    List (BitVec 6 × Instr)).all (fun p => decide (decode (.step p.1) = .ok p.2)) = true := by decide

/-- The sixteen indexes of round 3, bit by bit (R64). -/
theorem test_decode_round3 : ([
    (0b100000#6, .hh32), (0b100001#6, .hh33), (0b100010#6, .hh34), (0b100011#6, .hh35),
    (0b100100#6, .hh36), (0b100101#6, .hh37), (0b100110#6, .hh38), (0b100111#6, .hh39),
    (0b101000#6, .hh40), (0b101001#6, .hh41), (0b101010#6, .hh42), (0b101011#6, .hh43),
    (0b101100#6, .hh44), (0b101101#6, .hh45), (0b101110#6, .hh46), (0b101111#6, .hh47)] :
    List (BitVec 6 × Instr)).all (fun p => decide (decode (.step p.1) = .ok p.2)) = true := by decide

/-- The sixteen indexes of round 4, bit by bit (R64). -/
theorem test_decode_round4 : ([
    (0b110000#6, .ii48), (0b110001#6, .ii49), (0b110010#6, .ii50), (0b110011#6, .ii51),
    (0b110100#6, .ii52), (0b110101#6, .ii53), (0b110110#6, .ii54), (0b110111#6, .ii55),
    (0b111000#6, .ii56), (0b111001#6, .ii57), (0b111010#6, .ii58), (0b111011#6, .ii59),
    (0b111100#6, .ii60), (0b111101#6, .ii61), (0b111110#6, .ii62), (0b111111#6, .ii63)] :
    List (BitVec 6 × Instr)).all (fun p => decide (decode (.step p.1) = .ok p.2)) = true := by decide

theorem test_table_word_command : decodeTableWord 2 0b10 = some .final := by decide

theorem test_table_word_step : decodeTableWord 6 0b000000 = some .ff00 ∧ decodeTableWord 6 0b111111 = some .ii63 := by decide

theorem test_table_word_whole_byte : decodeTableWord 8 0b00010001 = some .gg17 ∧ decodeTableWord 8 64 = none := by decide

/-- The first instruction after reset: INIT, from its placed word (R80). -/
theorem test_fetch_word_init :
    nextIs (step (State.reset.withFetchWord 2 0b00)) (fun t => decide (t = initContext State.reset)) = true := by decide

/-- The first instruction after reset: step 0, on words and registers that are all zero: `a` is `0xd76aa478` rotated left
by 7, `0xb5523c6b` by hand. -/
theorem test_fetch_word_step :
    nextIs (step (State.reset.withFetchWord 6 0)) (fun t => decide (t.transform.map (fun r => (r.regs, r.i)) =
      some (⟨0xb5523c6b, 0, 0, 0⟩, 1))) = true := by decide

/-- The buffer of the reset state is in canonical form. -/
theorem test_reset_memory_canonical : State.reset.buffer.wf := by decide

/-! ## Primitives, round functions and codec (95_test_vectors.md section 2) -/

theorem test_add_wraps : (0xffffffff : Word) + 1 = 0 ∧ (0x67452301 : Word) + 0xefcdab89 = 0x5712ce8a := by decide

theorem test_rotl32 : rotl32 0x80000000 1 = 1 ∧ rotl32 0x12345678 23 = 0x3c091a2b ∧ rotl32 0x12345678 4 = 0x23456781 ∧
    rotl32 0xda6ca577 7 = 0x3652bbed := by decide

theorem test_mixF : mixF 0x0f0f0f0f 0x33333333 0x55555555 = 0x53535353 ∧ mixF 0x12345678 0 0xffffffff = 0xedcba987 := by decide

theorem test_mixG : mixG 0x0f0f0f0f 0x33333333 0x55555555 = 0x27272727 ∧ mixG 0xffffffff 0x12345678 0x9abcdef0 = 0x9abcdef8 := by
  decide

theorem test_mixH : mixH 0x0f0f0f0f 0x33333333 0x55555555 = 0x69696969 ∧ mixH 0 0x12345678 0x9abcdef0 = 0x88888888 := by decide

theorem test_mixI : mixI 0x0f0f0f0f 0x33333333 0x55555555 = 0x9c9c9c9c ∧ mixI 0xffffffff 0x12345678 0x9abcdef0 = 0xedcba987 := by
  decide

theorem test_decode32LE : decode32LE 0x61 0x62 0x63 0x80 = 0x80636261 := by decide

theorem test_encode32LE : encode32LE 0xd98c1dd4 = [0xd4, 0x1d, 0x8c, 0xd9] := by decide

theorem test_encode64LE : encode64LE 0x0123456789abcdef = [0xef, 0xcd, 0xab, 0x89, 0x67, 0x45, 0x23, 0x01] ∧
    encode64LE 0x100000008 = [8, 0, 0, 0, 1, 0, 0, 0] := by decide

theorem test_message_words : (messageWords blockT1).get 0 = 0x03020100 ∧ (messageWords blockT1).get 15 = 0x3f3e3d3c := by
  decide

/-! ## The 64 steps: trace T1, one step each (95_test_vectors.md section 4) -/

/-- Steps 0 to 7 of trace T1. -/
theorem test_FF00_to_FF07 : ([
    (0, ⟨0x67452301, 0xefcdab89, 0x98badcfe, 0x10325476⟩, ⟨0x26206776, 0xefcdab89, 0x98badcfe, 0x10325476⟩),
    (1, ⟨0x26206776, 0xefcdab89, 0x98badcfe, 0x10325476⟩, ⟨0x26206776, 0xefcdab89, 0x98badcfe, 0xd2e5f35f⟩),
    (2, ⟨0x26206776, 0xefcdab89, 0x98badcfe, 0xd2e5f35f⟩, ⟨0x26206776, 0xefcdab89, 0x5855e17a, 0xd2e5f35f⟩),
    (3, ⟨0x26206776, 0xefcdab89, 0x5855e17a, 0xd2e5f35f⟩, ⟨0x26206776, 0x10a3a155, 0x5855e17a, 0xd2e5f35f⟩),
    (4, ⟨0x26206776, 0x10a3a155, 0x5855e17a, 0xd2e5f35f⟩, ⟨0x8ae168d5, 0x10a3a155, 0x5855e17a, 0xd2e5f35f⟩),
    (5, ⟨0x8ae168d5, 0x10a3a155, 0x5855e17a, 0xd2e5f35f⟩, ⟨0x8ae168d5, 0x10a3a155, 0x5855e17a, 0x21e330f8⟩),
    (6, ⟨0x8ae168d5, 0x10a3a155, 0x5855e17a, 0x21e330f8⟩, ⟨0x8ae168d5, 0x10a3a155, 0xe6d789fb, 0x21e330f8⟩),
    (7, ⟨0x8ae168d5, 0x10a3a155, 0xe6d789fb, 0x21e330f8⟩, ⟨0x8ae168d5, 0x026d04e8, 0xe6d789fb, 0x21e330f8⟩)] :
    List (BitVec 6 × Working × Working)).all stepsTo = true := by decide

/-- Steps 8 to 15 of trace T1. -/
theorem test_FF08_to_FF15 : ([
    (8, ⟨0x8ae168d5, 0x026d04e8, 0xe6d789fb, 0x21e330f8⟩, ⟨0xa816e785, 0x026d04e8, 0xe6d789fb, 0x21e330f8⟩),
    (9, ⟨0xa816e785, 0x026d04e8, 0xe6d789fb, 0x21e330f8⟩, ⟨0xa816e785, 0x026d04e8, 0xe6d789fb, 0xddc33936⟩),
    (10, ⟨0xa816e785, 0x026d04e8, 0xe6d789fb, 0xddc33936⟩, ⟨0xa816e785, 0x026d04e8, 0x47047194, 0xddc33936⟩),
    (11, ⟨0xa816e785, 0x026d04e8, 0x47047194, 0xddc33936⟩, ⟨0xa816e785, 0x80ee7444, 0x47047194, 0xddc33936⟩),
    (12, ⟨0xa816e785, 0x80ee7444, 0x47047194, 0xddc33936⟩, ⟨0x703ffb15, 0x80ee7444, 0x47047194, 0xddc33936⟩),
    (13, ⟨0x703ffb15, 0x80ee7444, 0x47047194, 0xddc33936⟩, ⟨0x703ffb15, 0x80ee7444, 0x47047194, 0x75480cb1⟩),
    (14, ⟨0x703ffb15, 0x80ee7444, 0x47047194, 0x75480cb1⟩, ⟨0x703ffb15, 0x80ee7444, 0x42a63f7d, 0x75480cb1⟩),
    (15, ⟨0x703ffb15, 0x80ee7444, 0x42a63f7d, 0x75480cb1⟩, ⟨0x703ffb15, 0xb744be1e, 0x42a63f7d, 0x75480cb1⟩)] :
    List (BitVec 6 × Working × Working)).all stepsTo = true := by decide

/-- Steps 16 to 23 of trace T1. -/
theorem test_GG16_to_GG23 : ([
    (16, ⟨0x703ffb15, 0xb744be1e, 0x42a63f7d, 0x75480cb1⟩, ⟨0x60915912, 0xb744be1e, 0x42a63f7d, 0x75480cb1⟩),
    (17, ⟨0x60915912, 0xb744be1e, 0x42a63f7d, 0x75480cb1⟩, ⟨0x60915912, 0xb744be1e, 0x42a63f7d, 0x27758f9e⟩),
    (18, ⟨0x60915912, 0xb744be1e, 0x42a63f7d, 0x27758f9e⟩, ⟨0x60915912, 0xb744be1e, 0x4cfb8fa0, 0x27758f9e⟩),
    (19, ⟨0x60915912, 0xb744be1e, 0x4cfb8fa0, 0x27758f9e⟩, ⟨0x60915912, 0xb24a4ed1, 0x4cfb8fa0, 0x27758f9e⟩),
    (20, ⟨0x60915912, 0xb24a4ed1, 0x4cfb8fa0, 0x27758f9e⟩, ⟨0xc65bf548, 0xb24a4ed1, 0x4cfb8fa0, 0x27758f9e⟩),
    (21, ⟨0xc65bf548, 0xb24a4ed1, 0x4cfb8fa0, 0x27758f9e⟩, ⟨0xc65bf548, 0xb24a4ed1, 0x4cfb8fa0, 0x4580c9de⟩),
    (22, ⟨0xc65bf548, 0xb24a4ed1, 0x4cfb8fa0, 0x4580c9de⟩, ⟨0xc65bf548, 0xb24a4ed1, 0xb0ce3419, 0x4580c9de⟩),
    (23, ⟨0xc65bf548, 0xb24a4ed1, 0xb0ce3419, 0x4580c9de⟩, ⟨0xc65bf548, 0x354123c2, 0xb0ce3419, 0x4580c9de⟩)] :
    List (BitVec 6 × Working × Working)).all stepsTo = true := by decide

/-- Steps 24 to 31 of trace T1. -/
theorem test_GG24_to_GG31 : ([
    (24, ⟨0xc65bf548, 0x354123c2, 0xb0ce3419, 0x4580c9de⟩, ⟨0xcb84e67a, 0x354123c2, 0xb0ce3419, 0x4580c9de⟩),
    (25, ⟨0xcb84e67a, 0x354123c2, 0xb0ce3419, 0x4580c9de⟩, ⟨0xcb84e67a, 0x354123c2, 0xb0ce3419, 0xb9ea740c⟩),
    (26, ⟨0xcb84e67a, 0x354123c2, 0xb0ce3419, 0xb9ea740c⟩, ⟨0xcb84e67a, 0x354123c2, 0x46a3a029, 0xb9ea740c⟩),
    (27, ⟨0xcb84e67a, 0x354123c2, 0x46a3a029, 0xb9ea740c⟩, ⟨0xcb84e67a, 0xe654aaa9, 0x46a3a029, 0xb9ea740c⟩),
    (28, ⟨0xcb84e67a, 0xe654aaa9, 0x46a3a029, 0xb9ea740c⟩, ⟨0x4269463b, 0xe654aaa9, 0x46a3a029, 0xb9ea740c⟩),
    (29, ⟨0x4269463b, 0xe654aaa9, 0x46a3a029, 0xb9ea740c⟩, ⟨0x4269463b, 0xe654aaa9, 0x46a3a029, 0xf4c0b183⟩),
    (30, ⟨0x4269463b, 0xe654aaa9, 0x46a3a029, 0xf4c0b183⟩, ⟨0x4269463b, 0xe654aaa9, 0x9ded1de9, 0xf4c0b183⟩),
    (31, ⟨0x4269463b, 0xe654aaa9, 0x9ded1de9, 0xf4c0b183⟩, ⟨0x4269463b, 0x7eb2d796, 0x9ded1de9, 0xf4c0b183⟩)] :
    List (BitVec 6 × Working × Working)).all stepsTo = true := by decide

/-- Steps 32 to 39 of trace T1. -/
theorem test_HH32_to_HH39 : ([
    (32, ⟨0x4269463b, 0x7eb2d796, 0x9ded1de9, 0xf4c0b183⟩, ⟨0x9043e06d, 0x7eb2d796, 0x9ded1de9, 0xf4c0b183⟩),
    (33, ⟨0x9043e06d, 0x7eb2d796, 0x9ded1de9, 0xf4c0b183⟩, ⟨0x9043e06d, 0x7eb2d796, 0x9ded1de9, 0x17dd9100⟩),
    (34, ⟨0x9043e06d, 0x7eb2d796, 0x9ded1de9, 0x17dd9100⟩, ⟨0x9043e06d, 0x7eb2d796, 0x6b0fc4e5, 0x17dd9100⟩),
    (35, ⟨0x9043e06d, 0x7eb2d796, 0x6b0fc4e5, 0x17dd9100⟩, ⟨0x9043e06d, 0x9c61f6e4, 0x6b0fc4e5, 0x17dd9100⟩),
    (36, ⟨0x9043e06d, 0x9c61f6e4, 0x6b0fc4e5, 0x17dd9100⟩, ⟨0x68292245, 0x9c61f6e4, 0x6b0fc4e5, 0x17dd9100⟩),
    (37, ⟨0x68292245, 0x9c61f6e4, 0x6b0fc4e5, 0x17dd9100⟩, ⟨0x68292245, 0x9c61f6e4, 0x6b0fc4e5, 0x14390af5⟩),
    (38, ⟨0x68292245, 0x9c61f6e4, 0x6b0fc4e5, 0x14390af5⟩, ⟨0x68292245, 0x9c61f6e4, 0x1fee6c50, 0x14390af5⟩),
    (39, ⟨0x68292245, 0x9c61f6e4, 0x1fee6c50, 0x14390af5⟩, ⟨0x68292245, 0xce639160, 0x1fee6c50, 0x14390af5⟩)] :
    List (BitVec 6 × Working × Working)).all stepsTo = true := by decide

/-- Steps 40 to 47 of trace T1. -/
theorem test_HH40_to_HH47 : ([
    (40, ⟨0x68292245, 0xce639160, 0x1fee6c50, 0x14390af5⟩, ⟨0xa96071a8, 0xce639160, 0x1fee6c50, 0x14390af5⟩),
    (41, ⟨0xa96071a8, 0xce639160, 0x1fee6c50, 0x14390af5⟩, ⟨0xa96071a8, 0xce639160, 0x1fee6c50, 0xf764ad7e⟩),
    (42, ⟨0xa96071a8, 0xce639160, 0x1fee6c50, 0xf764ad7e⟩, ⟨0xa96071a8, 0xce639160, 0xeefc41d0, 0xf764ad7e⟩),
    (43, ⟨0xa96071a8, 0xce639160, 0xeefc41d0, 0xf764ad7e⟩, ⟨0xa96071a8, 0x30cbc102, 0xeefc41d0, 0xf764ad7e⟩),
    (44, ⟨0xa96071a8, 0x30cbc102, 0xeefc41d0, 0xf764ad7e⟩, ⟨0x6bb50c1f, 0x30cbc102, 0xeefc41d0, 0xf764ad7e⟩),
    (45, ⟨0x6bb50c1f, 0x30cbc102, 0xeefc41d0, 0xf764ad7e⟩, ⟨0x6bb50c1f, 0x30cbc102, 0xeefc41d0, 0x13e01256⟩),
    (46, ⟨0x6bb50c1f, 0x30cbc102, 0xeefc41d0, 0x13e01256⟩, ⟨0x6bb50c1f, 0x30cbc102, 0xef2fa8d1, 0x13e01256⟩),
    (47, ⟨0x6bb50c1f, 0x30cbc102, 0xef2fa8d1, 0x13e01256⟩, ⟨0x6bb50c1f, 0x72fba73c, 0xef2fa8d1, 0x13e01256⟩)] :
    List (BitVec 6 × Working × Working)).all stepsTo = true := by decide

/-- Steps 48 to 55 of trace T1. -/
theorem test_II48_to_II55 : ([
    (48, ⟨0x6bb50c1f, 0x72fba73c, 0xef2fa8d1, 0x13e01256⟩, ⟨0x9f195b19, 0x72fba73c, 0xef2fa8d1, 0x13e01256⟩),
    (49, ⟨0x9f195b19, 0x72fba73c, 0xef2fa8d1, 0x13e01256⟩, ⟨0x9f195b19, 0x72fba73c, 0xef2fa8d1, 0xcfb58ca6⟩),
    (50, ⟨0x9f195b19, 0x72fba73c, 0xef2fa8d1, 0xcfb58ca6⟩, ⟨0x9f195b19, 0x72fba73c, 0x168c9ffb, 0xcfb58ca6⟩),
    (51, ⟨0x9f195b19, 0x72fba73c, 0x168c9ffb, 0xcfb58ca6⟩, ⟨0x9f195b19, 0x12d4a00c, 0x168c9ffb, 0xcfb58ca6⟩),
    (52, ⟨0x9f195b19, 0x12d4a00c, 0x168c9ffb, 0xcfb58ca6⟩, ⟨0x11294ca2, 0x12d4a00c, 0x168c9ffb, 0xcfb58ca6⟩),
    (53, ⟨0x11294ca2, 0x12d4a00c, 0x168c9ffb, 0xcfb58ca6⟩, ⟨0x11294ca2, 0x12d4a00c, 0x168c9ffb, 0x11f50608⟩),
    (54, ⟨0x11294ca2, 0x12d4a00c, 0x168c9ffb, 0x11f50608⟩, ⟨0x11294ca2, 0x12d4a00c, 0x7a719d46, 0x11f50608⟩),
    (55, ⟨0x11294ca2, 0x12d4a00c, 0x7a719d46, 0x11f50608⟩, ⟨0x11294ca2, 0x0183697d, 0x7a719d46, 0x11f50608⟩)] :
    List (BitVec 6 × Working × Working)).all stepsTo = true := by decide

/-- Steps 56 to 63 of trace T1. -/
theorem test_II56_to_II63 : ([
    (56, ⟨0x11294ca2, 0x0183697d, 0x7a719d46, 0x11f50608⟩, ⟨0x7d179c0b, 0x0183697d, 0x7a719d46, 0x11f50608⟩),
    (57, ⟨0x7d179c0b, 0x0183697d, 0x7a719d46, 0x11f50608⟩, ⟨0x7d179c0b, 0x0183697d, 0x7a719d46, 0x701f4538⟩),
    (58, ⟨0x7d179c0b, 0x0183697d, 0x7a719d46, 0x701f4538⟩, ⟨0x7d179c0b, 0x0183697d, 0x12b12332, 0x701f4538⟩),
    (59, ⟨0x7d179c0b, 0x0183697d, 0x12b12332, 0x701f4538⟩, ⟨0x7d179c0b, 0xf6be582c, 0x12b12332, 0x701f4538⟩),
    (60, ⟨0x7d179c0b, 0xf6be582c, 0x12b12332, 0x701f4538⟩, ⟨0x29ffb6c9, 0xf6be582c, 0x12b12332, 0x701f4538⟩),
    (61, ⟨0x29ffb6c9, 0xf6be582c, 0x12b12332, 0x701f4538⟩, ⟨0x29ffb6c9, 0xf6be582c, 0x12b12332, 0x522da0a8⟩),
    (62, ⟨0x29ffb6c9, 0xf6be582c, 0x12b12332, 0x522da0a8⟩, ⟨0x29ffb6c9, 0xf6be582c, 0xda417e3a, 0x522da0a8⟩),
    (63, ⟨0x29ffb6c9, 0xf6be582c, 0xda417e3a, 0x522da0a8⟩, ⟨0x29ffb6c9, 0xe9343940, 0xda417e3a, 0x522da0a8⟩)] :
    List (BitVec 6 × Working × Working)).all stepsTo = true := by decide

/-- Step 63 of trace T1 through the machine: the working registers are added back and the transform ends. -/
theorem test_step63_adds_back :
    nextIs (step (inT1 63 ⟨0x29ffb6c9, 0xf6be582c, 0xda417e3a, 0x522da0a8⟩)) (fun t => decide (t.hash = ⟨0x9144d9ca, 0xd901e4c9, 0x72fc5b38, 0x625ff51e⟩) && t.transform.isNone) = true := by
  decide

/-- The whole transform of trace T1. -/
theorem test_transform_T1 : transform initHash blockT1 = ⟨0x9144d9ca, 0xd901e4c9, 0x72fc5b38, 0x625ff51e⟩ := by decide +kernel

/-! ## The commands (95_test_vectors.md sections 1, 3 and 5) -/

/-- Vector V1 and program P1: FINAL on an empty message, and the zeroed context. -/
theorem test_final_empty :
    nextIs (exec .final (filled 0)) (fun t => decide (t.digest.toList = [0xd4, 0x1d, 0x8c, 0xd9, 0x8f, 0x00, 0xb2, 0x04, 0xe9, 0x80, 0x09, 0x98, 0xec, 0xf8, 0x42, 0x7e]) &&
      decide (t.result = .digest t.digest) && decide (t.hash = ⟨0, 0, 0, 0⟩) && decide (t.bitCount = 0) && !t.live) = true := by
  decide +kernel

/-- Vector V3: FINAL on `"abc"`. -/
theorem test_final_abc :
    nextIs (exec .final afterAbc) (fun t => decide (t.digest.toList =
      [0x90, 0x01, 0x50, 0x98, 0x3c, 0xd2, 0x4f, 0xb0, 0xd6, 0x96, 0x3f, 0x7d, 0x28, 0xe1, 0x7f, 0x72])) = true := by
  decide +kernel

/-- Section 3.2, L = 55: one transform. -/
theorem test_final_fill_55 :
    nextIs (exec .final (filled 55)) (fun t => decide (t.digest.toList =
      [0xef, 0x17, 0x72, 0xb6, 0xdf, 0xf9, 0xa1, 0x22, 0x35, 0x85, 0x52, 0x95, 0x4a, 0xd0, 0xdf, 0x65])) = true := by
  decide +kernel

/-- Section 3.2, L = 56 and program P4: two transforms. -/
theorem test_final_fill_56 :
    nextIs (exec .final (filled 56)) (fun t => decide (t.digest.toList =
      [0x3b, 0x0c, 0x8a, 0xc7, 0x03, 0xf8, 0x28, 0xb0, 0x4c, 0x6c, 0x19, 0x70, 0x06, 0xd1, 0x72, 0x18])) = true := by
  decide +kernel

/-- Section 3.1, index 60, n = 3: the short branch at its last length. -/
theorem test_update_short_edge :
    nextIs (exec (.update [0x62, 0x62, 0x62]) (filled 60)) (fun t => decide (t.hash = initHash) && decide (t.bitCount = 504) &&
      decide (t.buffer.read 62 = 0x62)) = true := by decide

/-- Section 3.1, index 60, n = 4: the long branch at its first length. -/
theorem test_update_long_edge :
    nextIs (exec (.update [0x62, 0x62, 0x62, 0x62]) (filled 60)) (fun t =>
      decide (t.hash = ⟨0xdc01a9dd, 0x3f9f8394, 0x971a1e05, 0x3c5e11fd⟩) && decide (t.bitCount = 512)) = true := by
  decide +kernel

/-- Section 3.1, index 63, n = 65: flush and one direct block. -/
theorem test_update_direct_block :
    nextIs (exec (.update (List.replicate 65 0x62)) (filled 63)) (fun t =>
      decide (t.hash = ⟨0xddbd5146, 0xd1c9192d, 0x9a4fa181, 0x99931a01⟩) && decide (t.bitCount = 1024)) = true := by
  decide +kernel

/-- Program P7, line 3: INIT in mid-stream keeps the stale bytes of the buffer. -/
theorem test_init_keeps_buffer :
    nextIs (exec .init afterAbc) (fun t => decide (t.bitCount = 0) && decide (t.buffer.read 2 = 0x63) && t.live) = true := by
  decide

/-- Program P5, line 1: UPDATE after reset faults with cause 1. -/
theorem test_update_faults_after_reset :
    nextIs (exec (.update [0x61, 0x62, 0x63]) State.reset) (fun t => decide (t = faulted)) = true := by decide

/-- Program P5, line 2: a faulted engine refuses INIT. -/
theorem test_fault_refuses_init : nextIs (exec .init faulted) (fun t => decide (t = faulted)) = true := by decide

/-- Program P6, line 4: FINAL on a context that is not live faults with cause 2; `STATUS` is `1010`. -/
theorem test_final_faults :
    nextIs (exec .final State.reset) (fun t => decide (t.cause = .misuseFinal) && decide (t.status = 0b1010#4)) = true := by
  decide

/-- Program P7, line 6: the reserved op code faults with cause 3, on a live context too. -/
theorem test_reserved3_faults :
    nextIs (exec .reserved3 afterAbc) (fun t => decide (t.cause = .illegalOp) && t.fault && t.live) = true := by decide

/-- Reset beats the command it meets and clears the fault (R217, R230). -/
theorem test_reset_clears_fault :
    nextIs (step { faulted with pending := [.reset (some ⟨0b00#2, []⟩)] }) (fun t => decide (t = State.reset)) = true := by
  decide

/-- A step outside a transform is refused by name (R60, R67; Log 7). -/
theorem test_step_outside_transform : refusedIs (exec .hh34 afterAbc) (.noTransformInProgress 34) = true := by decide

/-- Command words with bytes after INIT are refused by name (R61, R63; Log 6). -/
theorem test_malformed_words_refused :
    refusedIs (step { State.reset with pending := [.command ⟨0b00#2, [0x61]⟩] }) (.undecodable (.payloadNotAllowed 0b00#2)) =
      true := by decide

/-- Writing 0 keeps the canonical form of the buffer. -/
theorem test_write_zero_removes : Memory.write 1 0 [(0, 0x61), (1, 0x62), (2, 0x63)] = [(0, 0x61), (2, 0x63)] := by decide

/-! ## Witnesses: concrete states and operands that meet the hypotheses of each obligation -/

theorem ready_filled (n : Nat) (h : (filled n).buffer.wf) : Ready (filled n) := ⟨rfl, rfl, h⟩

theorem ready_afterAbc : Ready afterAbc := ⟨rfl, rfl, by decide⟩

theorem inv_afterAbc : Inv afterAbc := ⟨by decide, by decide, by decide, by decide, fun h => absurd rfl h⟩

/-- A reset that overtakes a command in a faulted engine, with a further action behind it. -/
theorem witness_ResetActionClearsEveryRegister :
    ({ faulted with pending := [.reset (some ⟨0b01#2, [0x61]⟩), .readStatus] } : State).pending =
      .reset (some ⟨0b01#2, [0x61]⟩) :: [.readStatus] := rfl

/-- A live context, and a transform in progress, that meet the invariant and step on. -/
theorem witness_EveryStepKeepsContextInvariant :
    (Inv afterAbc ∧ step afterAbc = .next afterAbc) ∧
    (Inv (inT1 62 ⟨1, 2, 3, 4⟩) ∧ nextIs (step (inT1 62 ⟨1, 2, 3, 4⟩)) (fun _ => true) = true) :=
  ⟨⟨inv_afterAbc, rfl⟩, ⟨by decide, by decide, by decide, by decide, fun _ => ⟨rfl, rfl⟩⟩, by decide⟩

theorem witness_DecodeOfEncodeGivesBackInstr : Instr.wfWith (some 3) (.update [1, 2, 3]) = true := by decide

theorem witness_EncodeOfDecodeGivesBackWords :
    decodeWith (some 3) (.command ⟨0b01#2, [1, 2, 3]⟩) = .ok (.update [1, 2, 3]) := by decide

theorem witness_StepRunsDecodedCommand :
    ({ afterAbc with pending := [.command ⟨0b10#2, []⟩, .readDigest] } : State).pending =
      .command ⟨0b10#2, []⟩ :: [.readDigest] ∧ afterAbc.transform = none ∧ decode (.command ⟨0b10#2, []⟩) = .ok .final :=
  ⟨rfl, rfl, by decide⟩

/-- The last step, which ends the transform, and the one before it, which does not; a command is waiting. -/
theorem witness_StepRunsSequencedTransformStep :
    (inT1 63 ⟨1, 2, 3, 4⟩).transform = some ⟨⟨1, 2, 3, 4⟩, messageWords blockT1, 63⟩ ∧
    (inT1 62 ⟨1, 2, 3, 4⟩).transform = some ⟨⟨1, 2, 3, 4⟩, messageWords blockT1, 62⟩ ∧
    noResetFirst (inT1 63 ⟨1, 2, 3, 4⟩).pending ∧ noResetFirst [.command ⟨0b10#2, []⟩] :=
  ⟨rfl, rfl, by simp [noResetFirst, inT1, State.reset], by simp [noResetFirst]⟩

/-- One state for each of the three clauses. -/
theorem witness_IdleAndReadsChangeNoRegister :
    (afterAbc.transform = none ∧ afterAbc.pending = []) ∧
    ({ afterAbc with pending := [.readStatus] } : State).pending = .readStatus :: [] ∧
    ({ afterAbc with pending := [.readDigest] } : State).pending = .readDigest :: [] := ⟨⟨rfl, rfl⟩, rfl, rfl⟩

/-- A live context and one that is not, both unfaulted: for `ReservedOpRaisesIllegalOp`, `UpdateWithoutContextFaults`,
`FinalWithoutContextFaults`, `InitStartsFreshContext`, `UpdateAddsEightBitsPerByte` and both clauses of
`EmptyUpdateIsNoOp`. -/
theorem witness_unfaulted_states :
    (State.reset.fault = false ∧ State.reset.live = false) ∧ (afterAbc.fault = false ∧ afterAbc.live = true) :=
  ⟨⟨rfl, rfl⟩, rfl, rfl⟩

/-- A faulted engine, and a command waiting for it. -/
theorem witness_StickyFaultRefusesEveryCommand :
    faulted.fault = true ∧ Instr.isStep .init = false ∧ faulted.transform = none ∧
    ({ faulted with pending := [.command ⟨0b00#2, []⟩] } : State).pending = .command ⟨0b00#2, []⟩ :: [] := ⟨rfl, rfl, rfl, rfl⟩

theorem witness_FaultedEngineIsFrozenUntilReset :
    faulted.fault = true ∧ faulted.transform = none ∧ noReset [.command ⟨0b00#2, []⟩, .readStatus] :=
  ⟨rfl, rfl, by simp [noReset]⟩

/-- For each clause an instruction and a state that make it speak: INIT makes `live` 1, FINAL makes it 0 and writes `digest`,
a refused command runs with `fault` set, and an UPDATE sets `fault` and `cause`. -/
theorem witness_OnlyNamedInstrWriteFlagsAndDigest :
    nextIs (exec .init State.reset) (fun t => decide (t.live ≠ State.reset.live)) = true ∧
    nextIs (exec .final afterAbc) (fun t => decide (t.live ≠ afterAbc.live) && decide (t.digest ≠ afterAbc.digest)) = true ∧
    nextIs (exec .final faulted) (fun _ => faulted.fault) = true ∧
    nextIs (exec (.update []) State.reset) (fun t => decide (t.cause ≠ State.reset.cause)) = true :=
  ⟨by decide, by decide +kernel, by decide, by decide⟩

/-- The empty payload in a buffer of 63 bytes, and 63 bytes in an empty one. -/
theorem witness_ShortUpdateAppendsToBuffer :
    (Ready (filled 63) ∧ ([] : List Byte).length < 64 - fillLevel (filled 63).bitCount) ∧
    (Ready (filled 0) ∧ (List.replicate 63 (0x62 : Byte)).length < 64 - fillLevel (filled 0).bitCount) :=
  ⟨⟨ready_filled 63 (by decide), by decide⟩, ready_filled 0 (by decide), by decide⟩

/-- Exactly the deficit, at fill levels 63 and 0. -/
theorem witness_LongUpdateTransformsEveryFullBlock :
    (Ready (filled 63) ∧ 64 - fillLevel (filled 63).bitCount ≤ [(0x62 : Byte)].length) ∧
    (Ready (filled 0) ∧ 64 - fillLevel (filled 0).bitCount ≤ (List.replicate 64 (0x62 : Byte)).length) :=
  ⟨⟨ready_filled 63 (by decide), by decide⟩, ready_filled 0 (by decide), by decide⟩

/-- For `SplittingAPayloadChangesNothing`, and for `FinalReturnsDigestAndZeroizes` at fill levels 55 and 56 (its other two
clauses: `witness_StickyFaultRefusesEveryCommand` and `witness_unfaulted_states`). -/
theorem witness_ready_states : Ready afterAbc ∧ Ready (filled 55) ∧ Ready (filled 56) ∧
    fillLevel (filled 55).bitCount = 55 ∧ fillLevel (filled 56).bitCount = 56 :=
  ⟨ready_afterAbc, ready_filled 55 (by decide), ready_filled 56 (by decide), by decide, by decide⟩

theorem witness_UpdatesFoldAlignedBlocks : afterAbc.fault = false ∧ afterAbc.buffer.wf := ⟨rfl, by decide⟩

/-- Fill level 55 for the clause below 56, fill level 56 for the other. -/
theorem witness_PaddingBringsFillTo56 :
    ((filled 55).buffer.wf ∧ fillLevel (filled 55).bitCount < 56) ∧ ((filled 56).buffer.wf ∧ 56 ≤ fillLevel (filled 56).bitCount) :=
  ⟨⟨by decide, by decide⟩, by decide, by decide⟩

theorem witness_TrailerTriggersOneTransform : (filled 56).buffer.wf ∧ fillLevel (filled 56).bitCount = 56 :=
  ⟨by decide, by decide⟩

/-- INIT; UPDATE "a"; UPDATE "bc"; FINAL, with a read of the digest behind them. -/
theorem witness_DigestOfRunIsClosedForm :
    State.reset.fault = false ∧ State.reset.transform = none ∧ State.reset.buffer.wf ∧
    ({ State.reset with pending := digestCommands [[0x61], [0x62, 0x63]] ++ [.readDigest] } : State).pending =
      digestCommands [[0x61], [0x62, 0x63]] ++ [.readDigest] := ⟨rfl, rfl, by decide, rfl⟩

/-- After INIT, with stale bytes `"abc"` in the buffer and without. -/
theorem witness_StaleBytesAreUnobservable :
    AgreeOnValid (initContext afterAbc) (initContext State.reset) ∧ (initContext afterAbc).buffer ≠ (initContext State.reset).buffer ∧
    step (initContext afterAbc) = .next (initContext afterAbc) :=
  ⟨⟨rfl, rfl, by decide, ⟨by decide, by decide⟩, ⟨rfl, rfl, rfl⟩, rfl, rfl, rfl, rfl⟩, by decide, rfl⟩

/-- A context with `n` valid bytes that agrees with `filled n` on flags and count, and in no data value. -/
def otherData (n : Nat) : State := { filled n with hash := ⟨1, 2, 3, 4⟩, buffer := [] }

/-- Payloads that differ in every byte, on states that differ in hash state and buffer, both canonical: for UPDATE at fill
level 60, one byte below the deficit and exactly the deficit; for FINAL at fill levels 55 and 56; and a faulted engine. -/
theorem witness_ControlIgnoresDataValues :
    (SameControl (filled 60) (otherData 60) ∧ (filled 60).fault = false ∧ (filled 60).live = true ∧
      (filled 60).buffer.wf ∧ (otherData 60).buffer.wf) ∧
    (Instr.isStep (.update [1, 2, 3]) = false ∧ sameShape (.update [1, 2, 3]) (.update [4, 5, 6]) ∧
      [(1 : Byte), 2, 3].length < 64 - fillLevel (filled 60).bitCount) ∧
    (sameShape (.update [1, 2, 3, 4]) (.update [5, 6, 7, 8]) ∧
      64 - fillLevel (filled 60).bitCount ≤ [(1 : Byte), 2, 3, 4].length) ∧
    (Instr.isStep .final = false ∧ sameShape .final .final) ∧
    (SameControl (filled 55) (otherData 55) ∧ (filled 55).buffer.wf ∧ fillLevel (filled 55).bitCount < 56) ∧
    (SameControl (filled 56) (otherData 56) ∧ (filled 56).buffer.wf ∧ 56 ≤ fillLevel (filled 56).bitCount) ∧
    (SameControl faulted { faulted with hash := ⟨1, 2, 3, 4⟩ } ∧ faulted.fault = true) :=
  ⟨⟨⟨⟨rfl, rfl, rfl⟩, rfl⟩, rfl, rfl, by decide, by decide⟩, ⟨rfl, .inr ⟨_, _, rfl, rfl, rfl⟩, by decide⟩,
    ⟨.inr ⟨_, _, rfl, rfl, rfl⟩, by decide⟩, ⟨rfl, .inl rfl⟩, ⟨⟨⟨rfl, rfl, rfl⟩, rfl⟩, by decide, by decide⟩,
    ⟨⟨⟨rfl, rfl, rfl⟩, rfl⟩, by decide, by decide⟩, ⟨⟨rfl, rfl, rfl⟩, rfl⟩, rfl⟩

/-- Two engines; engine 1 is the same in both systems, engine 0 is not. -/
theorem witness_EnginesShareNothing :
    (#v[State.reset, afterAbc] : Engines 2).get 1 = (#v[faulted, afterAbc] : Engines 2).get 1 ∧
    ∃ e, Engines.step 1 (#v[State.reset, afterAbc] : Engines 2) = .next e := ⟨rfl, _, rfl⟩

theorem witness_SixtyFourStepsComputeTransform : noResetFirst afterAbc.pending := by simp [noResetFirst, afterAbc, State.reset]

/-- For `EveryStepFollowsTemplate` and the eight statements about the 64 steps (inside `StepEffect`). -/
theorem witness_transform_in_progress :
    (inT1 0 ⟨1, 2, 3, 4⟩).transform = some ⟨⟨1, 2, 3, 4⟩, messageWords blockT1, 0⟩ := rfl

theorem witness_StepsOutsideTransformAreRefused : afterAbc.transform = none := rfl

/-- The lowest and the highest bit, and the smallest and the largest amount: for `RoundFunctionsBitByBit` and
`RotationMovesEveryBit`. -/
theorem witness_bit_ranges : (0 < 32 ∧ 31 < 32) ∧ (1 ≤ 1 ∧ 1 ≤ 31) ∧ (1 ≤ 31 ∧ 31 ≤ 31) := by decide

end Sys2Proof.Tests
end

section
/-! SUPPORT. Rotation (00_scope.md rule R8): the model's `rotl32` is the library's `BitVec.rotateLeft`, and what it
does to each bit and to the value as a natural number. -/

namespace Sys2Proof.Machine

/-- `rotl32` is written as the library defines `rotateLeft`, so the library's facts apply to it. -/
theorem rotl32_eq_rotateLeft (v : Word) (s : Nat) : rotl32 v s = v.rotateLeft s := rfl

/-- Bits below 32 - s move up by `s`; the top `s` bits wrap round to the bottom. -/
theorem getLsbD_rotl32_add_mod (v : Word) {s j : Nat} (hs : s < 32) (hj : j < 32) :
    (rotl32 v s).getLsbD ((j + s) % 32) = v.getLsbD j := by
  rw [rotl32_eq_rotateLeft, BitVec.getLsbD_rotateLeft_of_le hs]
  obtain hlow | hwrap := Nat.lt_or_ge (j + s) 32
  · have hmod : (j + s) % 32 = j + s := Nat.mod_eq_of_lt hlow
    simp [hmod, hlow]
  · have hmod : (j + s) % 32 = j + s - 32 := by omega
    have hlt : j + s - 32 < s := by omega
    have hsrc : 32 - s + (j + s - 32) = j := by omega
    simp [hmod, hlt, hsrc]

/-- Only the left shift can pass 2^32: the right-shifted part is already reduced. -/
theorem toNat_rotl32 (v : Word) {s : Nat} (hs : s < 32) :
    (rotl32 v s).toNat = ((v.toNat * 2 ^ s) ||| (v.toNat / 2 ^ (32 - s))) % 2 ^ 32 := by
  have hright : v.toNat / 2 ^ (32 - s) < 2 ^ 32 := Nat.lt_of_le_of_lt (Nat.div_le_self ..) v.isLt
  rw [rotl32_eq_rotateLeft, BitVec.toNat_rotateLeft, Nat.mod_eq_of_lt hs, Nat.shiftLeft_eq,
    Nat.shiftRight_eq_div_pow, Nat.or_mod_two_pow, Nat.mod_eq_of_lt hright]

/-- Settles O38: the move of each bit and the shift formula, both for every amount below 32. -/
theorem rotationMovesEveryBit : Obligations.RotationMovesEveryBit := by
  intro v s _ hle
  have hs : s < 32 := Nat.lt_succ_of_le hle
  exact ⟨fun _ hj => getLsbD_rotl32_add_mod v hs hj, toNat_rotl32 v hs⟩

end Sys2Proof.Machine
end

section
/-! SUPPORT. Frames and composition of the update datapath: what `UpdateCore` and FINAL's padding leave unchanged, one
lemma per field, and the chain of transforms that two runs of the datapath make. -/

namespace Sys2Proof.Machine

open Sys2Proof.Safety

@[simp] theorem updateCore_live (data : List Byte) (s : State) : (updateCore data s).live = s.live := by
  rw [updateCore_frame]
@[simp] theorem updateCore_fault (data : List Byte) (s : State) : (updateCore data s).fault = s.fault := by
  rw [updateCore_frame]
@[simp] theorem updateCore_cause (data : List Byte) (s : State) : (updateCore data s).cause = s.cause := by
  rw [updateCore_frame]
@[simp] theorem updateCore_digest (data : List Byte) (s : State) : (updateCore data s).digest = s.digest := by
  rw [updateCore_frame]
@[simp] theorem updateCore_transform (data : List Byte) (s : State) : (updateCore data s).transform = s.transform := by
  rw [updateCore_frame]
@[simp] theorem updateCore_result (data : List Byte) (s : State) : (updateCore data s).result = s.result := by
  rw [updateCore_frame]
@[simp] theorem updateCore_pending (data : List Byte) (s : State) : (updateCore data s).pending = s.pending := by
  rw [updateCore_frame]

@[simp] theorem padAndFlush_fault (s : State) : (padAndFlush s).fault = s.fault := by rw [padAndFlush_frame]
@[simp] theorem padAndFlush_cause (s : State) : (padAndFlush s).cause = s.cause := by rw [padAndFlush_frame]
@[simp] theorem padAndFlush_transform (s : State) : (padAndFlush s).transform = s.transform := by rw [padAndFlush_frame]

/-- Two runs of the datapath chain the full blocks of the valid bytes followed by both payloads (R92). -/
theorem updateCore_updateCore_hash (a b : List Byte) (s : State) (hw : s.buffer.wf) :
    (updateCore b (updateCore a s)).hash =
      chain s.hash (validBytes s ++ a ++ b) ((fillLevel s.bitCount + a.length + b.length) / 64) := by
  have hfull : 64 * ((fillLevel s.bitCount + a.length) / 64) ≤ (validBytes s ++ a).length := by
    rw [List.length_append, length_validBytes]
    omega
  have hcount : (fillLevel s.bitCount + a.length + b.length) / 64 = (fillLevel s.bitCount + a.length) / 64 +
      (fillLevel (updateCore a s).bitCount + b.length) / 64 := by
    rw [updateCore_bitCount, fillLevel_addBits]
    omega
  rw [updateCore_hash b _ (wf_updateCore a s hw), updateCore_validBytes a s hw, updateCore_hash a s hw, hcount, chain_add,
    chain_append _ _ b _ hfull, List.drop_append_of_le_length hfull]

/-- An empty context has no valid byte (R24, R80). -/
theorem fillLevel_zero : fillLevel 0 = 0 := by decide

/-- The padding is `padlen` bytes, the marker `0x80` included (R192). -/
@[simp] theorem length_padding_fillLevel (c : Count) : (padding (fillLevel c)).length = padLen (fillLevel c) := by
  have := fillLevel_lt c
  simp only [padding, padLen, List.length_cons, List.length_replicate]
  split <;> omega

/-- The trailer is eight bytes (R193). -/
@[simp] theorem length_encode64LE (v : Count) : (encode64LE v).length = 8 := rfl

/-- FINAL's message bytes are the valid bytes, the padding and the trailer (R191, R192, R193). -/
theorem paddedTail_padLen (s : State) : paddedTail (padLen (fillLevel s.bitCount)) s =
    validBytes s ++ padding (fillLevel s.bitCount) ++ encode64LE s.bitCount := by
  simp [paddedTail, padding]

/-- The hash state that FINAL turns into the digest: the chain over its message bytes (R190). -/
theorem padAndFlush_hash (s : State) (hw : s.buffer.wf) :
    (padAndFlush s).hash = chain s.hash (paddedTail (padLen (fillLevel s.bitCount)) s)
      ((fillLevel s.bitCount + padLen (fillLevel s.bitCount) + 8) / 64) := by
  rw [padAndFlush, updateCore_updateCore_hash _ _ s hw, paddedTail_padLen, length_padding_fillLevel, length_encode64LE]

end Sys2Proof.Machine
end

section
/-! SUPPORT. The meanings of the commands by case, and one step of the machine by case: what each answers when its
guards are known. -/

namespace Sys2Proof.Machine

open Sys2Proof.Safety

/-- A faulted engine refuses every command (R213). -/
theorem exec_of_fault (i : Instr) (s : State) (hi : i.isStep = false) (hf : s.fault = true) :
    exec i s = .next (refuseCommand s) := by
  obtain ⟨-, h⟩ | ⟨h, -⟩ := exec_command i s hi
  · exact h
  · simp [h] at hf

/-- INIT on an unfaulted engine (R80). -/
theorem exec_init (s : State) (hf : s.fault = false) : exec .init s = .next (initContext s) := by
  simp [exec, execInit, hf]

/-- UPDATE on an unfaulted engine (R85, R210). -/
theorem exec_update (data : List Byte) (s : State) (hf : s.fault = false) :
    exec (.update data) s = .next (if s.live then updateContext data s else raiseFault .misuseUpdate s) := by
  cases hl : s.live <;> simp [exec, execUpdate, hf, hl]

/-- FINAL on an unfaulted engine (R190, R211). -/
theorem exec_final (s : State) (hf : s.fault = false) :
    exec .final s = .next (if s.live then finishDigest (padAndFlush s) else raiseFault .misuseFinal s) := by
  cases hl : s.live <;> simp [exec, execFinal, hf, hl]

/-- The reserved word on an unfaulted engine (R214). -/
theorem exec_reserved3 (s : State) (hf : s.fault = false) : exec .reserved3 s = .next (raiseFault .illegalOp s) := by
  simp [exec, execReserved3, hf]

/-- UPDATE of a ready context answers what the datapath leaves (R85). -/
theorem eq_updateContext_of_exec {data : List Byte} {s t : State} (hr : Ready s) (h : exec (.update data) s = .next t) :
    t = updateContext data s := by
  rw [exec_update data s hr.unfaulted, if_pos hr.isLive] at h
  cases h
  rfl

/-- FINAL of a ready context answers the digest and a zeroed context (R190). -/
theorem eq_finishDigest_of_exec {s t : State} (hr : Ready s) (h : exec .final s = .next t) :
    t = finishDigest (padAndFlush s) := by
  rw [exec_final s hr.unfaulted, if_pos hr.isLive] at h
  cases h
  rfl

/-- A step instruction that answers a next state replaces the working registers of a transform in progress (R101). -/
theorem exec_step_next (i : Instr) (s t : State) (hi : i.isStep = true) (h : exec i s = .next t) :
    ∃ r r', s.transform = some r ∧ t = { s with transform := some r' } := by
  obtain ⟨j, -, rfl⟩ := isStep_decodeStep i hi
  rw [exec_decodeStep] at h
  cases hr : s.transform with
  | none =>
    rw [inTransform_none _ _ _ hr] at h
    cases h
  | some r =>
    rw [inTransform_some _ _ _ _ hr] at h
    cases h
    exact ⟨r, _, rfl, rfl⟩

/-- The sequencer on a transform in progress (R28, R100). -/
theorem advanceSequencer_some (s : State) (t : TransformRun) (h : s.transform = some t) :
    advanceSequencer s = if t.i = 63 then { s with hash := addBack s.hash t.regs, transform := none }
      else { s with transform := some { t with i := t.i + 1 } } := by
  rw [advanceSequencer, h]

/-- Settles O9: the step function of the index gives the new working registers, and the sequencer does the rest. -/
theorem stepRunsSequencedTransformStep : Obligations.StepRunsSequencedTransformStep := by
  intro s t ht hn
  refine ⟨{ t with regs := stepFn t.i t.x t.regs }, ?_, rfl, ?_⟩
  · rw [exec_decodeStep, inTransform_some _ _ _ _ ht]
  · rw [step_of_transform s t ht hn, advanceSequencer_some _ _ rfl]
    rfl

/-- Settles O10: the action list names the move, and the move is the record update claimed. -/
theorem idleAndReadsChangeNoRegister : Obligations.IdleAndReadsChangeNoRegister := by
  intro s ht
  refine ⟨fun hp => ?_, fun rest hp => ?_, fun rest hp => ?_⟩
  · have hm : nextMove s = .idle := by rw [nextMove, hp, ht]
    rw [step, hm]
  · have hm : nextMove s = .readStatus rest := by rw [nextMove, hp, ht]
    rw [step, hm]
    rfl
  · have hm : nextMove s = .readDigest rest := by rw [nextMove, hp, ht]
    rw [step, hm]
    rfl

end Sys2Proof.Machine
end

section
/-! SUPPORT. Reset and the flags as the host sees them (10_state.md rules R29 to R35). -/

namespace Sys2Proof.Machine

open Sys2Proof.Safety

/-- Settles O1: field by field from the reset state; unlisted buffer bytes read 0. -/
theorem resetValueOfEveryRegister : Obligations.ResetValueOfEveryRegister := by
  have hdigest : ∀ j : Fin 16, State.reset.digest.get j = 0 := fun j => by simp [State.reset, Vector.get]
  exact ⟨rfl, rfl, fun _ _ => rfl, rfl, rfl, rfl, hdigest, rfl, by decide⟩

/-- Settles O11: `STATUS` depends on the three flags only, of which there are sixteen values. -/
theorem statusBitsAreTheFlags : Obligations.StatusBitsAreTheFlags := by
  intro s
  simp only [State.status]
  generalize s.live = live, s.fault = fault
  cases s.cause <;> revert live fault <;> decide

/-- Settles O18: a step instruction writes none of these fields; a command is refused, or is one of the cases of
`exec_command`, each of which writes only what it is named for. -/
theorem onlyNamedInstrWriteFlagsAndDigest : Obligations.OnlyNamedInstrWriteFlagsAndDigest := by
  intro i s t he
  cases hi : i.isStep with
  | true =>
    obtain ⟨_, _, -, rfl⟩ := exec_step_next i s t hi he
    simp
  | false =>
    obtain ⟨hf, hx⟩ | ⟨hf, ⟨rfl, hx⟩ | ⟨_, -, -, hx⟩ | ⟨_, -, -, hx⟩ | ⟨rfl, hl, hx⟩ | ⟨-, -, hx⟩ | ⟨-, hx⟩⟩ :=
      exec_command i s hi
    all_goals
      rw [hx] at he
      cases he
    · simp [hf]
    · simp [hf]
    · simp [hf]
    · simp [hf]
    · simp [hf, hl]
    · simp [hf]
    · simp [hf]

end Sys2Proof.Machine
end

section
/-! SUPPORT. The context invariant (10_state.md rule R27): it holds at reset, and every command, every step of a
transform and every other host action keeps it. -/

namespace Sys2Proof.Machine

open Sys2Proof.Safety

section

variable {s t : State}

/-- The invariant speaks of registers only: the result and the pending actions do not matter. -/
theorem inv_host (h : Inv s) (r : HostResult) (p : List HostAction) : Inv { s with result := r, pending := p } :=
  ⟨h.wholeBytes, h.canonical, h.deadIsZero, h.causeOfFault, h.transformInside⟩

/-- A fault with a named cause, taken between commands, keeps the invariant (R212). -/
theorem inv_raiseFault (h : Inv s) (ht : s.transform = none) (c : Cause) (hc : c ≠ .none) :
    Inv (raiseFault c s) :=
  ⟨h.wholeBytes, h.canonical, h.deadIsZero, by simp [hc], fun hn => absurd ht hn⟩

/-- INIT, executed between commands, keeps the invariant (R80). -/
theorem inv_initContext (h : Inv s) (ht : s.transform = none) : Inv (initContext s) :=
  ⟨rfl, h.canonical, fun hl => by simp at hl, h.causeOfFault, fun hn => absurd ht hn⟩

/-- UPDATE of a live context keeps the invariant (R87). -/
theorem inv_updateContext (data : List Byte) (h : Inv s) (hl : s.live = true) :
    Inv (updateContext data s) where
  wholeBytes := by
    rw [updateContext_bitCount, updateCore_bitCount]
    exact addBits_wholeBytes _ _ h.wholeBytes
  canonical := wf_updateCore data s h.canonical
  deadIsZero hd := by simp [hl] at hd
  causeOfFault := by simpa using h.causeOfFault
  transformInside := by simpa using h.transformInside

/-- FINAL, executed between commands, leaves a zeroed context (R196). -/
theorem inv_finishDigest (h : Inv s) (ht : s.transform = none) : Inv (finishDigest (padAndFlush s)) where
  wholeBytes := rfl
  canonical := wf_nil
  deadIsZero _ := ⟨rfl, rfl, rfl⟩
  causeOfFault := by simpa using h.causeOfFault
  transformInside hn := by simp [ht] at hn

/-- A step of a transform keeps the invariant: the hash state it may write is that of a live context (R28, R100). -/
theorem inv_transformStep (r : TransformRun) (h : Inv s) (hn : s.transform ≠ none) :
    Inv (advanceSequencer { s with transform := some r }) := by
  obtain ⟨hl, hf⟩ := h.transformInside hn
  have hdead : ∀ {P : Prop}, s.live = false → P := fun hd => by simp [hl] at hd
  rw [advanceSequencer_some _ r rfl]
  split
  · exact ⟨h.wholeBytes, h.canonical, hdead, h.causeOfFault, fun _ => ⟨hl, hf⟩⟩
  · exact ⟨h.wholeBytes, h.canonical, hdead, h.causeOfFault, fun _ => ⟨hl, hf⟩⟩

/-- Every command executed between commands keeps the invariant. -/
theorem inv_exec_command (i : Instr) (hi : i.isStep = false) (h : Inv s) (ht : s.transform = none)
    (he : exec i s = .next t) : Inv t := by
  obtain ⟨-, hx⟩ | ⟨-, ⟨-, hx⟩ | ⟨data, -, hl, hx⟩ | ⟨_, -, -, hx⟩ | ⟨-, -, hx⟩ | ⟨-, -, hx⟩ | ⟨-, hx⟩⟩ :=
    exec_command i s hi
  all_goals
    rw [hx] at he
    cases he
  · exact inv_host h _ _
  · exact inv_initContext h ht
  · exact inv_updateContext data h hl
  · exact inv_raiseFault h ht _ (by decide)
  · exact inv_finishDigest h ht
  · exact inv_raiseFault h ht _ (by decide)
  · exact inv_raiseFault h ht _ (by decide)

/-- Command words taken up between commands keep the invariant, whether they decode or not. -/
theorem inv_runCommand (w : CommandWords) (h : Inv s) (ht : s.transform = none)
    (hr : runCommand w s = .next t) : Inv t := by
  obtain ⟨i, hi, -, hx⟩ | ⟨e, -, hx⟩ := runCommand_cases w s
  · exact inv_exec_command i hi h ht (hx ▸ hr)
  · rw [hx, rejectWords] at hr
    split at hr <;> cases hr
    exact inv_host h _ _

end

/-- Settles O3: every field of the reset state is zero. -/
theorem contextInvariantAtReset : Obligations.ContextInvariantAtReset :=
  ⟨rfl, wf_nil, fun _ => ⟨rfl, rfl, rfl⟩, ⟨fun _ => rfl, fun _ => rfl⟩, fun h => absurd rfl h⟩

/-- Settles O4, one lemma for each kind of step of `step_cases`. -/
theorem everyStepKeepsContextInvariant : Obligations.EveryStepKeepsContextInvariant := by
  intro s s' h hs
  obtain ⟨_, rest, -, hx⟩ | ⟨t, ht, -, hx⟩ |
    ⟨ht, ⟨-, hx⟩ | ⟨rest, -, hx⟩ | ⟨rest, -, hx⟩ | ⟨w, rest, -, hx⟩⟩ := step_cases s
  all_goals rw [hx] at hs
  · cases hs
    exact inv_host contextInvariantAtReset _ rest
  · cases hs
    exact inv_transformStep _ h (by simp [ht])
  · cases hs
    exact h
  · cases hs
    exact inv_host h _ _
  · cases hs
    exact inv_host h _ _
  · exact inv_runCommand w (inv_host h s.result rest) ht hs

end Sys2Proof.Machine
end

section
/-! SUPPORT. Stale buffer bytes (10_state.md rules R25, R26): every operation takes states that agree on all but stale
bytes to states that do, and stops on one exactly when it stops on the other. -/

namespace Sys2Proof.Machine

open Sys2Proof.Safety

/-- Two outcomes that agree: next states that differ at most in stale bytes, or the same refusal. -/
inductive AgreeOutcome : Outcome → Outcome → Prop where
  /-- Both step on. -/
  | next {s t : State} (h : AgreeOnValid s t) : AgreeOutcome (.next s) (.next t)
  /-- Both stop, for the same reason. -/
  | refused (r : Refusal) : AgreeOutcome (.refused r) (.refused r)

section

variable {s t : State}

/-- A canonical state agrees with itself. -/
theorem agree_refl (hw : s.buffer.wf) : AgreeOnValid s s :=
  ⟨rfl, rfl, rfl, ⟨hw, hw⟩, ⟨rfl, rfl, rfl⟩, rfl, rfl, rfl, rfl⟩

/-- States that agree still do when the host gets the same result from both. -/
theorem agree_setResult (h : AgreeOnValid s t) (q r : HostResult) (hqr : q = r) :
    AgreeOnValid { s with result := q } { t with result := r } :=
  ⟨h.hash, h.bitCount, h.valid, h.canonical, h.flags, h.digest, h.transform, hqr, h.host.2⟩

/-- The action taken up is the same. -/
theorem agree_takePending (h : AgreeOnValid s t) (rest : List HostAction) :
    AgreeOnValid (takePending rest s) (takePending rest t) :=
  ⟨h.hash, h.bitCount, h.valid, h.canonical, h.flags, h.digest, h.transform, h.host.1, rfl⟩

theorem agree_refuseCommand (h : AgreeOnValid s t) : AgreeOnValid (refuseCommand s) (refuseCommand t) :=
  agree_setResult h .nothing .nothing rfl

/-- `STATUS` shows the flags only (R33). -/
theorem agree_hostReadStatus (h : AgreeOnValid s t) : AgreeOnValid (hostReadStatus s) (hostReadStatus t) := by
  obtain ⟨hl, hf, hc⟩ := h.flags
  have hstatus : s.status = t.status := by rw [State.status, State.status, hl, hf, hc]
  exact agree_setResult h _ _ (congrArg HostResult.status hstatus)

theorem agree_hostReadDigest (h : AgreeOnValid s t) : AgreeOnValid (hostReadDigest s) (hostReadDigest t) :=
  agree_setResult h _ _ (congrArg HostResult.digest h.digest)

theorem agree_raiseFault (h : AgreeOnValid s t) (c : Cause) :
    AgreeOnValid (raiseFault c s) (raiseFault c t) :=
  ⟨h.hash, h.bitCount, h.valid, h.canonical, ⟨h.flags.1, rfl, rfl⟩, h.digest, h.transform, rfl, h.host.2⟩

/-- INIT leaves no valid byte: the whole buffer is stale (R80, R86). -/
theorem agree_initContext (h : AgreeOnValid s t) : AgreeOnValid (initContext s) (initContext t) := by
  have hempty : ∀ u : State, validBytes (initContext u) = [] := fun u =>
    List.eq_nil_of_length_eq_zero ((length_validBytes _).trans fillLevel_zero)
  exact ⟨rfl, rfl, by rw [hempty, hempty], h.canonical, ⟨rfl, h.flags.2⟩, h.digest, h.transform, rfl, h.host.2⟩

/-- The datapath reads no stale byte: hash state and valid bytes come from the valid bytes and the payload (R26). -/
theorem agree_updateCore (h : AgreeOnValid s t) (data : List Byte) :
    AgreeOnValid (updateCore data s) (updateCore data t) where
  hash := by rw [updateCore_hash _ _ h.canonical.1, updateCore_hash _ _ h.canonical.2, h.hash, h.valid, h.bitCount]
  bitCount := by rw [updateCore_bitCount, updateCore_bitCount, h.bitCount]
  valid := by
    rw [updateCore_validBytes _ _ h.canonical.1, updateCore_validBytes _ _ h.canonical.2, h.valid, h.bitCount]
  canonical := ⟨wf_updateCore _ _ h.canonical.1, wf_updateCore _ _ h.canonical.2⟩
  flags := by simpa using h.flags
  digest := by simpa using h.digest
  transform := by simpa using h.transform
  host := by simpa using h.host

theorem agree_padAndFlush (h : AgreeOnValid s t) : AgreeOnValid (padAndFlush s) (padAndFlush t) := by
  rw [padAndFlush, padAndFlush, h.bitCount]
  exact agree_updateCore (agree_updateCore h _) _

/-- The digest is that of the hash state, and the zeroed contexts are equal (R194, R196). -/
theorem agree_finishDigest (h : AgreeOnValid s t) : AgreeOnValid (finishDigest s) (finishDigest t) := by
  have hd : digestOf s.hash = digestOf t.hash := congrArg digestOf h.hash
  exact ⟨rfl, rfl, rfl, ⟨wf_nil, wf_nil⟩, ⟨rfl, h.flags.2⟩, hd, h.transform, congrArg HostResult.digest hd, h.host.2⟩

/-- The transform's locals may be replaced by the same ones in both states. -/
theorem agree_setTransform (h : AgreeOnValid s t) (r : Option TransformRun) :
    AgreeOnValid { s with transform := r } { t with transform := r } :=
  ⟨h.hash, h.bitCount, h.valid, h.canonical, h.flags, h.digest, rfl, h.host⟩

/-- The sequencer reads the hash state and the transform's locals only (R28). -/
theorem agree_advanceSequencer (h : AgreeOnValid s t) :
    AgreeOnValid (advanceSequencer s) (advanceSequencer t) := by
  cases ht : t.transform with
  | none =>
    rw [advanceSequencer, advanceSequencer, h.transform, ht]
    exact h
  | some r =>
    rw [advanceSequencer_some s r (h.transform.trans ht), advanceSequencer_some t r ht]
    split
    · exact ⟨by rw [h.hash], h.bitCount, h.valid, h.canonical, h.flags, h.digest, rfl, h.host⟩
    · exact agree_setTransform h _

/-- A step instruction acts on the transform's locals, which are the same, or is refused by the same name. -/
theorem agree_exec_step (i : BitVec 6) (h : AgreeOnValid s t) :
    AgreeOutcome (exec (decodeStep i) s) (exec (decodeStep i) t) := by
  rw [exec_decodeStep, exec_decodeStep]
  cases ht : t.transform with
  | none =>
    rw [inTransform_none _ _ s (h.transform.trans ht), inTransform_none _ _ t ht]
    exact .refused _
  | some r =>
    rw [inTransform_some _ _ s r (h.transform.trans ht), inTransform_some _ _ t r ht]
    exact .next (agree_setTransform h _)

/-- Every command takes agreeing states to agreeing states: the flags choose the same case on both. -/
theorem agree_exec_command (i : Instr) (hi : i.isStep = false) (h : AgreeOnValid s t) :
    AgreeOutcome (exec i s) (exec i t) := by
  obtain ⟨hl, hf, -⟩ := h.flags
  cases htf : t.fault with
  | true =>
    rw [exec_of_fault i s hi (hf.trans htf), exec_of_fault i t hi htf]
    exact .next (agree_refuseCommand h)
  | false =>
    have hsf := hf.trans htf
    cases i with
    | init =>
      rw [exec_init s hsf, exec_init t htf]
      exact .next (agree_initContext h)
    | update data =>
      rw [exec_update data s hsf, exec_update data t htf, hl]
      split
      · exact .next (agree_setResult (agree_updateCore h data) _ _ rfl)
      · exact .next (agree_raiseFault h _)
    | final =>
      rw [exec_final s hsf, exec_final t htf, hl]
      split
      · exact .next (agree_finishDigest (agree_padAndFlush h))
      · exact .next (agree_raiseFault h _)
    | reserved3 =>
      rw [exec_reserved3 s hsf, exec_reserved3 t htf]
      exact .next (agree_raiseFault h _)
    | _ => cases hi

/-- Words the decoder rejects are refused alike (R219). -/
theorem agree_rejectWords (e : DecodeError) (h : AgreeOnValid s t) :
    AgreeOutcome (rejectWords e s) (rejectWords e t) := by
  rw [rejectWords, rejectWords, h.flags.2.1]
  split
  · exact .next (agree_refuseCommand h)
  · exact .refused _

/-- Command words act alike, whether they decode or not. -/
theorem agree_runCommand (w : CommandWords) (h : AgreeOnValid s t) :
    AgreeOutcome (runCommand w s) (runCommand w t) := by
  obtain ⟨i, hi, hd, hx⟩ | ⟨e, hd, hx⟩ := runCommand_cases w s
  · have ht : runCommand w t = exec i t := by rw [runCommand, hd]
    rw [hx, ht]
    exact agree_exec_command i hi h
  · have ht : runCommand w t = rejectWords e t := by rw [runCommand, hd]
    rw [hx, ht]
    exact agree_rejectWords e h

/-- What is taken up next depends on the action list and the transform only (R217). -/
theorem nextMove_congr (hp : s.pending = t.pending) (ht : s.transform = t.transform) :
    nextMove s = nextMove t := by
  unfold nextMove
  rw [hp, ht]

/-- The sequencer keeps the agreement of outcomes. -/
theorem agree_afterStep {o p : Outcome} (h : AgreeOutcome o p) : AgreeOutcome (afterStep o) (afterStep p) := by
  cases h with
  | next h => exact .next (agree_advanceSequencer h)
  | refused r => exact .refused r

/-- Agreeing states take the same move, and it gives agreeing outcomes. -/
theorem agree_step (h : AgreeOnValid s t) : AgreeOutcome (step s) (step t) := by
  unfold step
  rw [nextMove_congr h.host.2 h.transform]
  cases nextMove t with
  | idle => exact .next h
  | reset rest => exact .next (agree_refl wf_nil)
  | step i => exact agree_afterStep (agree_exec_step i h)
  | readStatus rest => exact .next (agree_hostReadStatus (agree_takePending h rest))
  | readDigest rest => exact .next (agree_hostReadDigest (agree_takePending h rest))
  | command w rest => exact agree_runCommand w (agree_takePending h rest)

/-- An outcome that agrees with a next state is an agreeing next state. -/
theorem AgreeOutcome.next_right {s' : State} {o : Outcome} (h : AgreeOutcome (.next s') o) :
    ∃ t', o = .next t' ∧ AgreeOnValid s' t' := by
  cases h with
  | next h => exact ⟨_, rfl, h⟩

end

/-- Settles O30: the relational step lemma `agree_step`, read from left to right. -/
theorem staleBytesAreUnobservable : Obligations.StaleBytesAreUnobservable := by
  intro s t s' h hs
  have hstep := agree_step h
  rw [hs] at hstep
  exact hstep.next_right

end Sys2Proof.Machine
end

section
/-! SUPPORT. Decisions and data values (10_state.md rule R37): the flags and the count after a command come from the
flags, the count and the payload's length; and which branch UPDATE and FINAL take is read from the state they leave. -/

namespace Sys2Proof.Machine

open Sys2Proof.Safety

/-! ## The branch taken, from one state -/

section

variable {s s' : State} {data : List Byte}

/-- Below the deficit UPDATE takes the short branch (R88). -/
theorem tookShort_of_exec (hr : Ready s) (he : exec (.update data) s = .next s')
    (hn : data.length < 64 - fillLevel s.bitCount) : TookShort data s s' := by
  obtain rfl := eq_updateContext_of_exec hr he
  have hcore : updateCore data s = updateShort data s (by omega) := by rw [updateCore, dif_pos hn]
  constructor
  · rw [updateContext_hash, hcore, updateShort_hash]
  · intro a _
    rw [updateContext_buffer, hcore, updateShort_read data s (by omega) hr.canonical]

/-- From the deficit on UPDATE takes the long branch, with one flushed block and the other full blocks direct (R89). -/
theorem tookLong_of_exec (hr : Ready s) (he : exec (.update data) s = .next s')
    (hn : 64 - fillLevel s.bitCount ≤ data.length) :
    TookLong ((fillLevel s.bitCount + data.length) / 64 - 1) data s s' := by
  obtain rfl := eq_updateContext_of_exec hr he
  have hcore : updateCore data s = updateLong data s := by rw [updateCore, dif_neg (by omega)]
  have hblocks : 1 + ((fillLevel s.bitCount + data.length) / 64 - 1) = (fillLevel s.bitCount + data.length) / 64 := by
    have := fillLevel_lt s.bitCount
    omega
  constructor
  · rw [updateContext_hash, updateCore_hash data s hr.canonical, hblocks]
  · intro a ha
    rw [updateContext_buffer, hcore, hblocks]
    split
    · exact updateLong_read_tail data s hr.canonical hn a (by omega)
    · exact updateLong_read_above data s hr.canonical hn a (by omega) ha

/-- FINAL pads up to the next fill level 56 and transforms the blocks that makes (R190, R192). -/
theorem paddedBy_of_exec (hr : Ready s) (he : exec .final s = .next s') :
    PaddedBy (padLen (fillLevel s.bitCount)) ((fillLevel s.bitCount + padLen (fillLevel s.bitCount) + 8) / 64) s s' := by
  obtain rfl := eq_finishDigest_of_exec hr he
  constructor
  · have hwhole : (fillLevel s.bitCount + padLen (fillLevel s.bitCount) + 8) % 64 = 0 := by
      have := fillLevel_lt s.bitCount
      unfold padLen
      split <;> omega
    rw [paddedTail_padLen, List.length_append, List.length_append, length_validBytes, length_padding_fillLevel,
      length_encode64LE]
    omega
  · rw [finishDigest_digest, padAndFlush_hash s hr.canonical]

/-- Below fill level 56 FINAL pads with `56 - index` bytes and runs one transform (R192). -/
theorem paddedBy_of_fill_lt (hr : Ready s) (he : exec .final s = .next s') (hn : fillLevel s.bitCount < 56) :
    PaddedBy (56 - fillLevel s.bitCount) 1 s s' := by
  have hpad : padLen (fillLevel s.bitCount) = 56 - fillLevel s.bitCount := if_pos hn
  have hblocks : (fillLevel s.bitCount + (56 - fillLevel s.bitCount) + 8) / 64 = 1 := by omega
  have h := paddedBy_of_exec hr he
  rwa [hpad, hblocks] at h

/-- From fill level 56 on FINAL pads with `120 - index` bytes and runs two transforms (R192). -/
theorem paddedBy_of_fill_ge (hr : Ready s) (he : exec .final s = .next s') (hn : 56 ≤ fillLevel s.bitCount) :
    PaddedBy (120 - fillLevel s.bitCount) 2 s s' := by
  have := fillLevel_lt s.bitCount
  have hpad : padLen (fillLevel s.bitCount) = 120 - fillLevel s.bitCount := if_neg (by omega)
  have hblocks : (fillLevel s.bitCount + (120 - fillLevel s.bitCount) + 8) / 64 = 2 := by omega
  have h := paddedBy_of_exec hr he
  rwa [hpad, hblocks] at h

end

/-! ## Two states that agree on flags and count -/

section

variable {s t : State}

/-- Commands of one shape are the same command, with payloads of one length. -/
theorem sameShape_cases (i j : Instr) (hi : i.isStep = false) (h : sameShape i j) :
    (i = .init ∧ j = .init) ∨ (∃ p q, i = .update p ∧ j = .update q ∧ p.length = q.length) ∨
    (i = .final ∧ j = .final) ∨ (i = .reserved3 ∧ j = .reserved3) := by
  obtain rfl | h := h
  · cases i with
    | init => simp
    | update p => simp
    | final => simp
    | reserved3 => simp
    | _ => cases hi
  · exact .inr (.inl h)

/-- Commands of one shape are commands both. -/
theorem sameShape_isStep (i j : Instr) (hi : i.isStep = false) (h : sameShape i j) : j.isStep = false := by
  obtain rfl | ⟨_, _, -, rfl, -⟩ := h
  · exact hi
  · rfl

/-- Two UPDATEs of one shape have payloads of one length. -/
theorem sameShape_update (p q : List Byte) (h : sameShape (.update p) (.update q)) : p.length = q.length := by
  obtain h | ⟨_, _, ⟨⟩, ⟨⟩, hlen⟩ := h
  · cases h
    rfl
  · exact hlen

/-- Only FINAL has the shape of FINAL. -/
theorem sameShape_final (j : Instr) (h : sameShape .final j) : j = .final := by
  obtain rfl | ⟨_, _, ⟨⟩, -⟩ := h
  rfl

theorem sameControl_raiseFault (h : SameControl s t) (c : Cause) :
    SameControl (raiseFault c s) (raiseFault c t) :=
  ⟨⟨h.flags.1, rfl, rfl⟩, h.bitCount⟩

theorem sameControl_updateContext {p q : List Byte} (h : SameControl s t) (hlen : p.length = q.length) :
    SameControl (updateContext p s) (updateContext q t) := by
  refine ⟨by simpa using h.flags, ?_⟩
  rw [updateContext_bitCount, updateContext_bitCount, updateCore_bitCount, updateCore_bitCount, h.bitCount, hlen]

theorem sameControl_finishDigest (h : SameControl s t) :
    SameControl (finishDigest (padAndFlush s)) (finishDigest (padAndFlush t)) :=
  ⟨⟨rfl, by simpa using h.flags.2⟩, rfl⟩

/-- Commands of one shape go on alike on states with the same flags and count, and return nothing on both or on
neither. -/
theorem exec_sameControl {i j : Instr} (hi : i.isStep = false) (hs : sameShape i j) (h : SameControl s t) :
    ∃ s' t', exec i s = .next s' ∧ exec j t = .next t' ∧ SameControl s' t' ∧
      (s'.result = .nothing ↔ t'.result = .nothing) := by
  obtain ⟨hl, hf, hc⟩ := h.flags
  cases htf : t.fault with
  | true =>
    exact ⟨_, _, exec_of_fault i s hi (hf.trans htf), exec_of_fault j t (sameShape_isStep i j hi hs) htf,
      ⟨h.flags, h.bitCount⟩, Iff.rfl⟩
  | false =>
    have hsf := hf.trans htf
    obtain ⟨rfl, rfl⟩ | ⟨p, q, rfl, rfl, hlen⟩ | ⟨rfl, rfl⟩ | ⟨rfl, rfl⟩ := sameShape_cases i j hi hs
    · exact ⟨_, _, exec_init s hsf, exec_init t htf, ⟨⟨rfl, hf, hc⟩, rfl⟩, Iff.rfl⟩
    · refine ⟨_, _, exec_update p s hsf, exec_update q t htf, ?_⟩
      rw [hl]
      split
      · exact ⟨sameControl_updateContext h hlen, Iff.rfl⟩
      · exact ⟨sameControl_raiseFault h _, Iff.rfl⟩
    · refine ⟨_, _, exec_final s hsf, exec_final t htf, ?_⟩
      rw [hl]
      split
      · exact ⟨sameControl_finishDigest h, by simp⟩
      · exact ⟨sameControl_raiseFault h _, Iff.rfl⟩
    · exact ⟨_, _, exec_reserved3 s hsf, exec_reserved3 t htf, sameControl_raiseFault h _, Iff.rfl⟩

end

/-- Settles O31: both commands go on alike by `exec_sameControl`, and each takes its branch by the lemma about one
state, at the fill level and payload length that the two share. -/
theorem controlIgnoresDataValues : Obligations.ControlIgnoresDataValues := by
  intro i j s t hi hs h
  obtain ⟨s', t', hes, het, hcontrol, hresult⟩ := exec_sameControl hi hs h
  obtain ⟨hl, hf, -⟩ := h.flags
  refine ⟨s', t', hes, het, hcontrol, hresult, fun hsf => ?_, fun hsf hsl hws hwt => ⟨?_, ?_, ?_, ?_⟩⟩
  · rw [exec_of_fault i s hi hsf] at hes
    rw [exec_of_fault j t (sameShape_isStep i j hi hs) (hf ▸ hsf)] at het
    cases hes
    cases het
    exact ⟨rfl, rfl⟩
  all_goals
    have hrs : Ready s := ⟨hsf, hsl, hws⟩
    have hrt : Ready t := ⟨hf ▸ hsf, hl ▸ hsl, hwt⟩
    have hfill : fillLevel s.bitCount = fillLevel t.bitCount := congrArg fillLevel h.bitCount
  · rintro p q rfl rfl hn
    have hlen := sameShape_update p q hs
    exact ⟨tookShort_of_exec hrs hes hn, tookShort_of_exec hrt het (by omega)⟩
  · rintro p q rfl rfl hn
    have hlen := sameShape_update p q hs
    have hlong := tookLong_of_exec hrt het (by omega)
    rw [← hfill, ← hlen] at hlong
    exact ⟨tookLong_of_exec hrs hes hn, hlong⟩
  · rintro rfl hn
    obtain rfl := sameShape_final j hs
    have hone := paddedBy_of_fill_lt hrt het (by omega)
    rw [← hfill] at hone
    exact ⟨paddedBy_of_fill_lt hrs hes hn, hone⟩
  · rintro rfl hn
    obtain rfl := sameShape_final j hs
    have htwo := paddedBy_of_fill_ge hrt het (by omega)
    rw [← hfill] at htwo
    exact ⟨paddedBy_of_fill_ge hrs hes hn, htwo⟩

end Sys2Proof.Machine
end

section
/-! SUPPORT. Several engines (20_memory.md rule R53, 60_exceptions.md rule R222): what a step of one engine of a system
answers, and the other engines it leaves alone. -/

namespace Sys2Proof.Machine

/-- A step of engine `k` goes on exactly when that engine alone steps on, and then writes its place only (R53). -/
theorem enginesStep_next_iff {n : Nat} (k : Fin n) (e e' : Engines n) :
    Engines.step k e = .next e' ↔ ∃ s, step (e.get k) = .next s ∧ e' = e.set k s := by
  rw [Engines.step]
  cases step (e.get k) with
  | next s => simp [eq_comm]
  | fault r => simp
  | refused r => simp

/-- The place that was written holds the new engine state. -/
@[simp] theorem engines_get_set_self {n : Nat} (e : Engines n) (k : Fin n) (s : State) : (e.set k s).get k = s := by
  simp [Vector.get_eq_getElem]

/-- Every other place holds the engine state it held (R53). -/
theorem engines_get_set_ne {n : Nat} (e : Engines n) {j k : Fin n} (h : j ≠ k) (s : State) :
    (e.set k s).get j = e.get j :=
  Vector.getElem_set_ne k.isLt j.isLt (Fin.val_ne_of_ne h.symm)

/-- Settles O32: the step of `e` is the lone step of engine `k`, whose next state both systems store at place `k`. -/
theorem enginesShareNothing : Obligations.EnginesShareNothing := by
  intro n k e f hk e' he
  obtain ⟨s, hs, rfl⟩ := (enginesStep_next_iff k e e').mp he
  have hf : Engines.step k f = .next (f.set k s) := (enginesStep_next_iff k f _).mpr ⟨s, hk ▸ hs, rfl⟩
  exact ⟨fun j hj => engines_get_set_ne e hj s, by rw [engines_get_set_self, hs], f.set k s, hf, by simp⟩

end Sys2Proof.Machine
end

section
/-! SUPPORT. The little-endian word codec as sum and by bytes (48_codec.md rule R200), and the message words of a block
(20_memory.md rule R44). -/

namespace Sys2Proof.Machine

/-- The bits of `x` stand above the `n` bits of `y`. -/
theorem toNat_append_eq_add {m n : Nat} (x : BitVec m) (y : BitVec n) :
    (x ++ y).toNat = x.toNat * 2 ^ n + y.toNat := by
  rw [BitVec.toNat_append, ← Nat.shiftLeft_add_eq_or_of_lt y.isLt, Nat.shiftLeft_eq]

/-- `Decode32LE` is the little-endian sum of its bytes (R200). -/
theorem toNat_decode32LE (b0 b1 b2 b3 : Byte) : (decode32LE b0 b1 b2 b3).toNat =
    b0.toNat + 2 ^ 8 * b1.toNat + 2 ^ 16 * b2.toNat + 2 ^ 24 * b3.toNat := by
  rw [decode32LE, toNat_append_eq_add, toNat_append_eq_add, toNat_append_eq_add]
  omega

/-- Above the low byte a concatenation shows its high part, eight bits further down. -/
theorem extractLsb'_append_byte {m : Nat} (x : BitVec m) (y : Byte) (start len : Nat) :
    (x ++ y).extractLsb' (start + 8) len = x.extractLsb' start len :=
  BitVec.extractLsb'_append_eq_of_le (Nat.le_add_left 8 start)

/-- Byte `k` of a decoded word, bits `8k+7 : 8k`, is the byte decoded at place `k` (R200). -/
theorem extractLsb'_decode32LE (b : Fin 4 → Byte) (k : Fin 4) :
    (decode32LE (b 0) (b 1) (b 2) (b 3)).extractLsb' (8 * k.val) 8 = b k := by
  rw [decode32LE]
  match k with
  | 0 => exact BitVec.extractLsb'_append_eq_right
  | 1 => exact (extractLsb'_append_byte _ _ 0 8).trans BitVec.extractLsb'_append_eq_right
  | 2 =>
    calc
      _ = (b 3 ++ b 2 ++ b 1).extractLsb' 8 8 := extractLsb'_append_byte _ _ 8 8
      _ = (b 3 ++ b 2).extractLsb' 0 8 := extractLsb'_append_byte _ _ 0 8
      _ = b 2 := BitVec.extractLsb'_append_eq_right
  | 3 =>
    calc
      _ = (b 3 ++ b 2 ++ b 1).extractLsb' 16 8 := extractLsb'_append_byte _ _ 16 8
      _ = (b 3 ++ b 2).extractLsb' 8 8 := extractLsb'_append_byte _ _ 8 8
      _ = b 3 := BitVec.extractLsb'_append_eq_left

/-- A message word is looked up by its index (R44). -/
@[simp] theorem messageWords_get (b : Block) (j : Fin 16) : (messageWords b).get j = messageWord b j :=
  Vector.get_ofFn (messageWord b) j

/-- Settles O43: a message word is the decoding of the four block bytes from `4j` on. -/
theorem messageWordsAreLittleEndian : Obligations.MessageWordsAreLittleEndian := by
  intro b j
  rw [messageWords_get]
  exact ⟨toNat_decode32LE _ _ _ _, extractLsb'_decode32LE fun k => b.get ⟨4 * j.val + k.val, by omega⟩⟩

end Sys2Proof.Machine
end

section
/-! SUPPORT. The decoder and the encoder (30_encoding.md rules R60 to R67): decoding and encoding invert each other in both
directions, and what the rejection of command words says about them. -/

namespace Sys2Proof.Machine

/-! ## The decoder by op code -/

/-- The four command words (R61). -/
theorem op_cases (op : BitVec 2) : op = 0b00#2 ∨ op = 0b01#2 ∨ op = 0b10#2 ∨ op = 0b11#2 := by
  revert op
  decide

/-- UPDATE is accepted when its payload fits, and its payload is all that follows (R61, R62). -/
theorem decodeCommandWith_update (cap : Option Nat) (w : CommandWords) (h : w.op = 0b01#2) :
    decodeCommandWith cap w =
      if payloadFits cap w.payload.length then .ok (.update w.payload) else .error (.payloadTooLong w.payload.length) := by
  rw [decodeCommandWith, h]
  rfl

/-- Every other op stands for one command, encoded as that op alone (R61, R63). -/
theorem decodeCommandWith_of_ne_update (cap : Option Nat) (w : CommandWords) (h : w.op ≠ 0b01#2) :
    ∃ i, encode i = .command ⟨w.op, []⟩ ∧ i.wfWith cap = true ∧ decodeCommandWith cap w = withoutPayload w i := by
  obtain hop | hop | hop | hop := op_cases w.op
  · exact ⟨.init, by rw [hop, encode], rfl, by simp [decodeCommandWith, hop]⟩
  · exact absurd hop h
  · exact ⟨.final, by rw [hop, encode], rfl, by simp [decodeCommandWith, hop]⟩
  · exact ⟨.reserved3, by rw [hop, encode], rfl, by simp [decodeCommandWith, hop]⟩

/-- A command without payload is accepted when no byte follows its op (R61, R63). -/
theorem withoutPayload_eq_ok_iff (w : CommandWords) (i j : Instr) :
    withoutPayload w i = .ok j ↔ w.payload = [] ∧ i = j := by
  rw [withoutPayload]
  split <;> simp [*]

/-- A command without payload is rejected when a byte follows its op, and the rejection names the op (Log 6). -/
theorem withoutPayload_eq_error_iff (w : CommandWords) (i : Instr) (e : DecodeError) :
    withoutPayload w i = .error e ↔ w.payload ≠ [] ∧ .payloadNotAllowed w.op = e := by
  rw [withoutPayload]
  split <;> simp [*]

/-! ## Decoding and encoding -/

/-- Settles O6: a step is the decoding of its index; the three commands without payload evaluate, and UPDATE is accepted
because its payload fits. -/
theorem decodeOfEncodeGivesBackInstr : Obligations.DecodeOfEncodeGivesBackInstr := by
  intro cap i hw
  cases hi : i.isStep with
  | true =>
    obtain ⟨j, he, rfl⟩ := isStep_decodeStep i hi
    rw [he, decodeWith]
  | false =>
    cases i with
    | init => rfl
    | update data => exact (decodeCommandWith_update cap ⟨0b01#2, data⟩ rfl).trans (if_pos hw)
    | final => rfl
    | reserved3 => rfl
    | _ => cases hi

/-- Accepted command words are the encoding of what they decode to, which is well formed (R61, R62, R63). -/
theorem encode_of_decodeCommandWith {cap : Option Nat} {w : CommandWords} {i : Instr}
    (h : decodeCommandWith cap w = .ok i) : encode i = .command w ∧ i.wfWith cap = true := by
  by_cases hop : w.op = 0b01#2
  · rw [decodeCommandWith_update cap w hop] at h
    split at h
    next hfits =>
      cases h
      exact ⟨by rw [encode, ← hop], hfits⟩
    next => cases h
  · obtain ⟨j, henc, hwf, hdec⟩ := decodeCommandWith_of_ne_update cap w hop
    rw [hdec, withoutPayload_eq_ok_iff] at h
    obtain ⟨hdata, rfl⟩ := h
    exact ⟨by rw [henc, ← hdata], hwf⟩

/-- A step instruction has no operand that could be ill formed (R64). -/
theorem wfWith_of_isStep (cap : Option Nat) (i : Instr) (h : i.isStep = true) : i.wfWith cap = true := by
  cases i with
  | init | update | final | reserved3 => cases h
  | _ => rfl

/-- Settles O7: in the command space by `encode_of_decodeCommandWith`, in the step space because distinct
indexes are distinct instructions. -/
theorem encodeOfDecodeGivesBackWords : Obligations.EncodeOfDecodeGivesBackWords := by
  intro cap w i h
  cases w with
  | command w => exact encode_of_decodeCommandWith h
  | step j =>
    cases h
    exact ⟨encode_decodeStep j, wfWith_of_isStep cap _ (decodeStep_isStep j)⟩

/-- Settles O5: each of the four command words and of the four indexes is a closed instance of the decoder. -/
theorem writtenOutWordsDecode : Obligations.WrittenOutWordsDecode := by
  unfold Obligations.WrittenOutWordsDecode
  decide

/-! ## Stops -/

/-- With no bound on payloads, command words are rejected only for bytes after an op that is not UPDATE's (Log 6). -/
theorem decode_command_eq_error {w : CommandWords} {e : DecodeError} (h : decode (.command w) = .error e) :
    w.op ≠ 0b01#2 ∧ w.payload ≠ [] ∧ e = .payloadNotAllowed w.op := by
  rw [decode, decodeWith] at h
  by_cases hop : w.op = 0b01#2
  · have hfits : payloadFits Config.maxUpdateLen w.payload.length = true := rfl
    rw [decodeCommandWith_update _ w hop, if_pos hfits] at h
    cases h
  · obtain ⟨i, -, -, hdec⟩ := decodeCommandWith_of_ne_update Config.maxUpdateLen w hop
    rw [hdec, withoutPayload_eq_error_iff] at h
    obtain ⟨hdata, rfl⟩ := h
    exact ⟨hop, hdata, rfl⟩

/-- A command always goes on to a next state, faulted or not (R210 to R214). -/
theorem exec_command_next (i : Instr) (s : State) (hi : i.isStep = false) : ∃ t, exec i s = .next t := by
  obtain ⟨-, h⟩ | ⟨-, ⟨-, h⟩ | ⟨_, -, -, h⟩ | ⟨_, -, -, h⟩ | ⟨-, -, h⟩ | ⟨-, -, h⟩ | ⟨-, h⟩⟩ := exec_command i s hi
  all_goals exact ⟨_, h⟩

/-- Command words taken up are answered by a next state, or meet an unfaulted engine and the decoder rejects them. -/
theorem runCommand_next_or_refused (w : CommandWords) (s : State) :
    (∃ t, runCommand w s = .next t) ∨
    (s.fault = false ∧ ∃ e, decode (.command w) = .error e ∧ runCommand w s = .refused (.undecodable e)) := by
  obtain ⟨i, hi, -, hrun⟩ | ⟨e, he, hrun⟩ := runCommand_cases w s
  · rw [hrun]
    exact .inl (exec_command_next i s hi)
  · rw [hrun, rejectWords]
    cases hf : s.fault with
    | true => exact .inl ⟨_, rfl⟩
    | false => exact .inr ⟨rfl, e, he, rfl⟩

/-- Settles O12: every kind of step of `step_cases` but a command goes on, and a command that does not is one whose words
the decoder rejects. -/
theorem machineStopsOnlyOnMalformedWords : Obligations.MachineStopsOnlyOnMalformedWords := by
  intro s
  obtain ⟨_, _, -, h⟩ | ⟨_, -, -, h⟩ | ⟨ht, ⟨-, h⟩ | ⟨_, -, h⟩ | ⟨_, -, h⟩ | ⟨w, rest, hp, h⟩⟩ := step_cases s
  case inr.inr.inr.inr.inr =>
    rw [h]
    obtain hnext | ⟨hf, e, he, hrun⟩ := runCommand_next_or_refused w (takePending rest s)
    · exact .inl hnext
    · obtain ⟨hop, hdata, rfl⟩ := decode_command_eq_error he
      exact .inr ⟨ht, hf, w, rest, hp, hop, hdata, hrun⟩
  all_goals exact .inl ⟨_, h⟩

/-! ## Single steps -/

/-- Between commands a step takes up the host's next command words (R60, R236). -/
theorem step_of_command (s : State) (w : CommandWords) (rest : List HostAction) (hp : s.pending = .command w :: rest)
    (ht : s.transform = none) : step s = runCommand w (takePending rest s) := by
  have hm : nextMove s = .command w rest := by rw [nextMove, hp, ht]
  rw [step, hm]

/-- Settles O8: the command words are taken up, and they decode to `i`. -/
theorem stepRunsDecodedCommand : Obligations.StepRunsDecodedCommand := by
  intro s w rest i hp ht hd
  rw [step_of_command s w rest hp ht, runCommand, hd]
  rfl

/-- Settles O36: every step index executes by `inTransform`, which refuses outside a transform. -/
theorem stepsOutsideTransformAreRefused : Obligations.StepsOutsideTransformAreRefused := by
  intro i s h
  rw [exec_decodeStep, inTransform_none i _ s h]

end Sys2Proof.Machine
end

section
/-! SUPPORT. The operand tables of a step index (30_encoding.md rules R64, R66; 42_block_transform.md rules R104, R105): the
index is a round and a position, and each table follows its closed form. -/

namespace Sys2Proof.Machine

/-- The word index is read from the table of the round at the position (R64, R105). -/
theorem wordIndex_append (r : BitVec 2) (p : BitVec 4) : wordIndex (r ++ p) =
    (if r = 0 then wordIndexes1 else if r = 1 then wordIndexes2 else if r = 2 then wordIndexes3 else wordIndexes4).get
      ⟨p.toNat, p.isLt⟩ := by
  simp only [wordIndex, BitVec.extractLsb'_append_eq_left, BitVec.extractLsb'_append_eq_right]

/-- The rotation amount is read from the row of the round at the position modulo 4 (R64, R104). -/
theorem rotationAmount_append (r : BitVec 2) (p : BitVec 4) :
    rotationAmount (r ++ p) = (rotationRow r).get ⟨p.toNat % 4, Nat.mod_lt _ (by decide)⟩ := by
  have hlow : (r ++ p).extractLsb' 0 2 = p.extractLsb' 0 2 := BitVec.extractLsb'_append_eq_of_add_le (by decide)
  simp only [rotationAmount, BitVec.extractLsb'_append_eq_left, hlow, BitVec.extractLsb'_toNat, Nat.shiftRight_zero]

/-- `KIDX` of round 1 is `p` (R66). -/
theorem wordIndexes1_get : ∀ p : Fin 16, (wordIndexes1.get p).val = p.val := by decide

/-- `KIDX` of round 2 is `5p + 1` modulo 16 (R66). -/
theorem wordIndexes2_get : ∀ p : Fin 16, (wordIndexes2.get p).val = (5 * p.val + 1) % 16 := by decide

/-- `KIDX` of round 3 is `3p + 5` modulo 16 (R66). -/
theorem wordIndexes3_get : ∀ p : Fin 16, (wordIndexes3.get p).val = (3 * p.val + 5) % 16 := by decide

/-- `KIDX` of round 4 is `7p` modulo 16 (R66). -/
theorem wordIndexes4_get : ∀ p : Fin 16, (wordIndexes4.get p).val = (7 * p.val) % 16 := by decide

/-- `S` is the entry of the round at the position modulo 4, and lies in 4 to 23 (R66). -/
theorem rotationRow_get (r : BitVec 2) (q : Fin 4) :
    (rotationRow r).get q = (if r = 0 then [7, 12, 17, 22] else if r = 1 then [5, 9, 14, 20]
      else if r = 2 then [4, 11, 16, 23] else [6, 10, 15, 21]).getD q.val 0 ∧
    4 ≤ (rotationRow r).get q ∧ (rotationRow r).get q ≤ 23 := by
  revert r q
  decide

/-- Settles O40: the index of round `r` and position `p` reads the tables at `r` and `p`, and each table follows its closed
form. -/
theorem indexAndRotationTablesFollowFormulas : Obligations.IndexAndRotationTablesFollowFormulas := by
  intro r p
  rw [wordIndex_append, rotationAmount_append]
  refine ⟨?_, rotationRow_get r _⟩
  split_ifs
  · exact wordIndexes1_get _
  · exact wordIndexes2_get _
  · exact wordIndexes3_get _
  · exact wordIndexes4_get _

end Sys2Proof.Machine
end

section
/-! SUPPORT. INIT starts a fresh context (40_initialize.md rules R80, R81). -/

namespace Sys2Proof.Machine

/-- Settles O19: INIT's fault check decides between a fresh context and a refusal that changes no register. -/
theorem initStartsFreshContext : Obligations.InitStartsFreshContext := by
  refine ⟨rfl, fun s => ⟨fun hf => ?unfaulted, fun hf => ?faulted⟩⟩
  case unfaulted => exact exec_init s hf
  case faulted => exact exec_of_fault .init s rfl hf

end Sys2Proof.Machine
end

section
/-! SUPPORT. UPDATE of a ready context (41_update.md rules R85 to R92): what one UPDATE answers, on either branch and for
the empty payload; and streaming: UPDATEs in a row agree, on all but stale bytes, with one UPDATE of the concatenation. -/

namespace Sys2Proof.Machine

open Sys2Proof.Safety

/-! ## One UPDATE -/

section

variable {s : State}

/-- UPDATE on a live, unfaulted engine runs the datapath and returns nothing (R85). -/
theorem exec_update_live (data : List Byte) (hf : s.fault = false) (hl : s.live = true) :
    exec (.update data) s = .next (updateContext data s) := by
  rw [exec_update data s hf, if_pos hl]

/-- UPDATE on an unfaulted engine with no live context faults, whatever the payload (R85, R210). -/
theorem exec_update_dead (data : List Byte) (hf : s.fault = false) (hl : s.live = false) :
    exec (.update data) s = .next (raiseFault .misuseUpdate s) := by
  rw [exec_update data s hf, if_neg (by simp [hl])]

/-- UPDATE leaves a ready context ready. -/
theorem ready_updateContext (data : List Byte) (hr : Ready s) : Ready (updateContext data s) :=
  ⟨by simpa using hr.unfaulted, by simpa using hr.isLive, wf_updateCore data s hr.canonical⟩

/-- The empty payload leaves every field as it was, the buffer included (R90). -/
theorem updateCore_nil (s : State) : updateCore [] s = s := by
  have hshort : ([] : List Byte).length < 64 - fillLevel s.bitCount := Nat.sub_pos_of_lt (fillLevel_lt s.bitCount)
  have hcount : addBits s.bitCount 0 = s.bitCount := BitVec.add_zero _
  rw [updateCore, dif_pos hshort, updateShort, memWrite_nil, List.length_nil, hcount]

/-- UPDATE on either branch as a full next state: the chain over the full blocks, the count, the buffer, and nothing else
(R87 to R89). -/
theorem exec_update_ready (data : List Byte) (hr : Ready s) :
    exec (.update data) s = .next { s with
      hash := chain s.hash (validBytes s ++ data) ((fillLevel s.bitCount + data.length) / 64)
      bitCount := addBits s.bitCount data.length
      buffer := (updateCore data s).buffer
      result := .nothing } := by
  rw [exec_update_live data hr.unfaulted hr.isLive, updateContext, updateCore_frame, updateCore_hash data s hr.canonical]

end

/-- Settles O23: on a live context the datapath is the identity by `updateCore_nil`; on another the lifecycle check comes
first. -/
theorem emptyUpdateIsNoOp : Obligations.EmptyUpdateIsNoOp := by
  intro s hf
  refine ⟨fun hl => ?live, fun hl => ?dead⟩
  case live => rw [exec_update_live [] hf hl, updateContext, updateCore_nil]
  case dead => exact exec_update_dead [] hf hl

/-- Settles O22: both branches add to the count alike, and UPDATE's next state is the datapath's but for the result. -/
theorem updateAddsEightBitsPerByte : Obligations.UpdateAddsEightBitsPerByte := by
  intro s data
  have hcount : (updateCore data s).bitCount.toNat = (s.bitCount.toNat + 8 * data.length) % 2 ^ 64 := by
    rw [updateCore_bitCount, addBits_toNat]
  have hfill : fillLevel (updateCore data s).bitCount = (fillLevel s.bitCount + data.length) % 64 := by
    rw [updateCore_bitCount, fillLevel_addBits]
  refine ⟨⟨hcount, hfill, by simp⟩, fun hf hl => ?_⟩
  exact ⟨updateContext data s, exec_update_live data hf hl, hcount, hfill, by simp [hf, hl]⟩

/-- Settles O20: below the deficit no block is full, and every byte of the buffer is that of `updateShort_read`. -/
theorem shortUpdateAppendsToBuffer : Obligations.ShortUpdateAppendsToBuffer := by
  intro s data hr hn
  have hblocks : (fillLevel s.bitCount + data.length) / 64 = 0 := by omega
  have hexec := exec_update_ready data hr
  have hread := updateShort_read data s (by omega) hr.canonical
  have hwf := wf_updateCore data s hr.canonical
  have hfill := fillLevel_addBits s.bitCount data.length
  rw [hblocks, chain_zero] at hexec
  rw [updateCore, dif_pos hn] at hexec hwf
  refine ⟨_, hexec, hwf, hfill.trans (Nat.mod_eq_of_lt (by omega)), fun a ha => ?outside, fun j hj => ?payload⟩
  case outside => rw [hread, if_neg (by omega)]
  case payload => rw [hread, if_pos (by omega), Nat.add_sub_cancel_left, List.getD_eq_getElem _ _ hj]

/-- Settles O21: from the deficit on the buffer is that of the long branch, its tail and the flushed block above it. -/
theorem longUpdateTransformsEveryFullBlock : Obligations.LongUpdateTransformsEveryFullBlock := by
  intro s data hr hn
  have hindex := fillLevel_lt s.bitCount
  have hexec := exec_update_ready data hr
  have hwf := wf_updateCore data s hr.canonical
  rw [updateCore, dif_neg (by omega)] at hexec hwf
  exact ⟨by omega, _, hexec, hwf, fillLevel_addBits s.bitCount data.length,
    updateLong_read_tail data s hr.canonical hn, updateLong_read_above data s hr.canonical hn⟩

/-! ## UPDATEs in a row -/

section

variable {s t u : State}

/-- Agreement on all but stale bytes is transitive. -/
theorem agree_trans (h : AgreeOnValid s t) (k : AgreeOnValid t u) : AgreeOnValid s u where
  hash := h.hash.trans k.hash
  bitCount := h.bitCount.trans k.bitCount
  valid := h.valid.trans k.valid
  canonical := ⟨h.canonical.1, k.canonical.2⟩
  flags := ⟨h.flags.1.trans k.flags.1, h.flags.2.1.trans k.flags.2.1, h.flags.2.2.trans k.flags.2.2⟩
  digest := h.digest.trans k.digest
  transform := h.transform.trans k.transform
  host := ⟨h.host.1.trans k.host.1, h.host.2.trans k.host.2⟩

/-- Two runs of the datapath leave what the full blocks of the valid bytes followed by both payloads leave (R92). -/
theorem updateCore_updateCore_validBytes (a b : List Byte) (s : State) (hw : s.buffer.wf) :
    validBytes (updateCore b (updateCore a s)) =
      (validBytes s ++ a ++ b).drop (64 * ((fillLevel s.bitCount + a.length + b.length) / 64)) := by
  have hfull : 64 * ((fillLevel s.bitCount + a.length) / 64) ≤ (validBytes s ++ a).length := by
    rw [List.length_append, length_validBytes]
    omega
  have hcount : 64 * ((fillLevel s.bitCount + a.length) / 64) +
      64 * ((fillLevel (updateCore a s).bitCount + b.length) / 64) =
      64 * ((fillLevel s.bitCount + a.length + b.length) / 64) := by
    rw [updateCore_bitCount, fillLevel_addBits]
    omega
  rw [updateCore_validBytes b _ (wf_updateCore a s hw), updateCore_validBytes a s hw,
    ← List.drop_append_of_le_length hfull, List.drop_drop, hcount]

/-- Splitting a payload changes stale bytes at most: the datapath run on both parts agrees with one run on the whole
(R92). -/
theorem agree_updateCore_append (a b : List Byte) (hw : s.buffer.wf) :
    AgreeOnValid (updateCore (a ++ b) s) (updateCore b (updateCore a s)) where
  hash := by
    rw [updateCore_hash _ s hw, updateCore_updateCore_hash a b s hw, List.append_assoc, List.length_append, Nat.add_assoc]
  bitCount := by
    rw [updateCore_bitCount, updateCore_bitCount, updateCore_bitCount, addBits_addBits, List.length_append]
  valid := by
    rw [updateCore_validBytes _ s hw, updateCore_updateCore_validBytes a b s hw, List.append_assoc, List.length_append,
      Nat.add_assoc]
  canonical := ⟨wf_updateCore _ s hw, wf_updateCore b _ (wf_updateCore a s hw)⟩
  flags := by simp
  digest := by simp
  transform := by simp
  host := by simp

/-- UPDATE does not read the last result. -/
theorem updateContext_setResult (data : List Byte) (s : State) (r : HostResult) :
    updateContext data { s with result := r } = updateContext data s := by
  unfold updateContext updateCore
  dsimp only
  split <;> rfl

/-- UPDATE `a ++ b` agrees with UPDATE `a`; UPDATE `b` on all but stale bytes (R92). -/
theorem agree_updateContext_append (a b : List Byte) (hw : s.buffer.wf) :
    AgreeOnValid (updateContext (a ++ b) s) (updateContext b (updateContext a s)) := by
  have hsecond : updateContext b (updateContext a s) = updateContext b (updateCore a s) := updateContext_setResult b _ _
  rw [hsecond]
  exact agree_setResult (agree_updateCore_append a b hw) .nothing .nothing rfl

/-- A sequence of instructions goes on from the next state of its first. -/
theorem execAll_cons_of_next {i : Instr} (is : List Instr) (h : exec i s = .next t) :
    execAll (i :: is) s = execAll is t := by
  rw [execAll, h]

/-- Any UPDATEs in a row agree with one UPDATE of their concatenation on all but stale bytes (R91, R92). The premise on
the result is for the empty row, which returns nothing of its own. -/
theorem execAll_updates (ps : List (List Byte)) (hr : Ready s) (hn : s.result = .nothing) :
    ∃ t, execAll (ps.map .update) s = .next t ∧ AgreeOnValid (updateContext ps.flatten s) t := by
  induction ps generalizing s with
  | nil =>
    refine ⟨s, rfl, ?_⟩
    rw [List.flatten_nil, updateContext, updateCore_nil]
    exact agree_setResult (agree_refl hr.canonical) .nothing s.result hn.symm
  | cons p ps ih =>
    obtain ⟨t, hx, ha⟩ := ih (ready_updateContext p hr) rfl
    have hfirst := exec_update_live p hr.unfaulted hr.isLive
    exact ⟨t, (execAll_cons_of_next _ hfirst).trans hx,
      agree_trans (agree_updateContext_append p ps.flatten hr.canonical) ha⟩

/-- FINAL answers the same digest on ready states that agree on all but stale bytes (R26). -/
theorem exec_final_agree (hs : Ready s) (ht : Ready t) (h : AgreeOnValid s t) :
    ∃ s' t', exec .final s = .next s' ∧ exec .final t = .next t' ∧ s'.digest = t'.digest ∧ s'.result = t'.result := by
  have ha := agree_finishDigest (agree_padAndFlush h)
  refine ⟨_, _, exec_final s hs.unfaulted, exec_final t ht.unfaulted, ?_⟩
  rw [if_pos hs.isLive, if_pos ht.isLive]
  exact ⟨ha.digest, ha.host.1⟩

end

/-- Settles O24: the two ways agree on all but stale bytes, and FINAL does not see those. -/
theorem splittingAPayloadChangesNothing : Obligations.SplittingAPayloadChangesNothing := by
  intro s a b hr
  have hra := ready_updateContext a hr
  have hagree := agree_updateContext_append a b hr.canonical
  have hsplit : execAll [.update a, .update b] s = .next (updateContext b (updateContext a s)) :=
    calc
      _ = execAll [.update b] (updateContext a s) :=
        execAll_cons_of_next _ (exec_update_live a hr.unfaulted hr.isLive)
      _ = _ := execAll_cons_of_next [] (exec_update_live b hra.unfaulted hra.isLive)
  exact ⟨_, _, exec_update_live (a ++ b) hr.unfaulted hr.isLive, hsplit, hagree.hash, hagree.bitCount, hagree.valid,
    exec_final_agree (ready_updateContext (a ++ b) hr) (ready_updateContext b hra) hagree⟩

/-- After INIT no byte of the buffer is valid (R80). -/
@[simp] theorem validBytes_initContext (s : State) : validBytes (initContext s) = [] :=
  List.eq_nil_of_length_eq_zero ((length_validBytes _).trans fillLevel_zero)

/-- Settles O25: the UPDATEs agree with one UPDATE of the whole message on the fresh context, whose fields are those of the
datapath with no valid bytes before the message. -/
theorem updatesFoldAlignedBlocks : Obligations.UpdatesFoldAlignedBlocks := by
  intro s ps hf hw
  obtain ⟨t, hx, ha⟩ := execAll_updates (s := initContext s) ps ⟨hf, rfl, hw⟩ rfl
  have hhash := updateCore_hash ps.flatten (initContext s) hw
  have hvalid := updateCore_validBytes ps.flatten (initContext s) hw
  have hcount : addBits 0 ps.flatten.length = BitVec.ofNat 64 (8 * ps.flatten.length) := BitVec.zero_add _
  rw [validBytes_initContext, initContext_bitCount, fillLevel_zero, List.nil_append, Nat.zero_add] at hhash hvalid
  refine ⟨t, (execAll_cons_of_next _ (exec_init s hf)).trans hx, ha.hash.symm.trans hhash, ?count,
    ha.valid.symm.trans hvalid, ?live, ?fault, ?digest⟩
  case count => rw [← ha.bitCount, updateContext_bitCount, updateCore_bitCount, initContext_bitCount, hcount]
  case live => simp [← ha.flags.1]
  case fault => simp [← ha.flags.2.1, hf]
  case digest => simp [← ha.digest]

end Sys2Proof.Machine
end

section
/-! SUPPORT. The block transform as one loop (42_block_transform.md rules R100, R101, R106, R108): the working registers
after the first steps, which the sequencer reaches one machine step at a time and the rotating form reaches under other
names. -/

namespace Sys2Proof.Machine

open Sys2Proof.Safety

/-! ## The step of an index and its operands -/

/-- The step written out for an index is the template with the operands read from the tables (R101, R107). -/
theorem stepFn_eq_templateStep (i : BitVec 6) : stepFn i = templateStep i := by
  induction i using forall_index with
  | h n h => interval_cases n <;> rfl

/-- Settles O35: the step of an index is its template, and it runs on the transform in progress. -/
theorem everyStepFollowsTemplate : Obligations.EveryStepFollowsTemplate := by
  intro i s t ht
  rw [exec_decodeStep, inTransform_some i _ s t ht, stepFn_eq_templateStep]

/-- No two positions of a round use the same message word: each closed form of R66 is injective modulo 16. -/
theorem wordIndex_injective (r : BitVec 2) : Function.Injective fun p : Fin 16 => wordIndex (r ++ (⟨p⟩ : BitVec 4)) := by
  intro p q h
  obtain ⟨hp, -⟩ := indexAndRotationTablesFollowFormulas r ⟨p⟩
  obtain ⟨hq, -⟩ := indexAndRotationTablesFollowFormulas r ⟨q⟩
  have hpq := hp.symm.trans ((congrArg Fin.val h).trans hq)
  simp only [BitVec.toNat_ofFin] at hpq
  split_ifs at hpq
  all_goals omega

/-- Settles O39: sixteen positions that use different words use all sixteen. -/
theorem everyRoundPermutesMessageWords : Obligations.EveryRoundPermutesMessageWords := by
  intro r k
  obtain ⟨p, hp⟩ := Finite.injective_iff_surjective.mp (wordIndex_injective r) k
  refine ⟨BitVec.ofFin p, hp, fun q hq => ?_⟩
  exact congrArg BitVec.ofFin (wordIndex_injective r (hq.trans hp.symm) : q.toFin = p)

/-! ## The working registers after the first steps -/

/-- The working registers after steps 0 to `k - 1` (R28, R100). -/
def regsAfter (x : MessageWords) (r : Working) (k : Nat) : Working :=
  (List.range k).foldl (fun r n => stepFn (BitVec.ofNat 6 n) x r) r

/-- Step `k` follows the steps before it. -/
theorem regsAfter_succ (x : MessageWords) (r : Working) (k : Nat) :
    regsAfter x r (k + 1) = stepFn (BitVec.ofNat 6 k) x (regsAfter x r k) := by
  rw [regsAfter, List.range_succ, List.foldl_append]
  rfl

/-- The transform adds back the registers after all 64 steps (R100). -/
theorem transform_eq_addBack_regsAfter (h : Hash) (b : Block) :
    transform h b = addBack h (regsAfter (messageWords b) (seedWorking h) 64) :=
  transform_eq h b

/-! ## The sequencer -/

/-- Before step 63 the sequencer goes on to the next index (R28). -/
theorem advanceSequencer_of_ne (s : State) (r : Working) (x : MessageWords) {i : BitVec 6} (hi : i ≠ 63) :
    advanceSequencer { s with transform := some ⟨r, x, i⟩ } = { s with transform := some ⟨r, x, i + 1⟩ } :=
  if_neg hi

/-- After step 63 the sequencer adds the registers back and ends the transform (R100). -/
theorem advanceSequencer_last (s : State) (r : Working) (x : MessageWords) :
    advanceSequencer { s with transform := some ⟨r, x, 63⟩ } =
      { s with hash := addBack s.hash r, transform := none } := rfl

/-- A transform of `b` begun on `s`, its first `k` steps done. -/
def transformAfter (b : Block) (s : State) (k : Nat) : State :=
  { s with transform := some ⟨regsAfter (messageWords b) (seedWorking s.hash) k, messageWords b, BitVec.ofNat 6 k⟩ }

section

variable (b : Block) {s : State} (hn : noResetFirst s.pending)
include hn

/-- A machine step inside a transform runs the next step and advances the sequencer (R28). -/
theorem step_transformAfter (k : Nat) : step (transformAfter b s k) = .next (advanceSequencer { s with
    transform := some ⟨regsAfter (messageWords b) (seedWorking s.hash) (k + 1), messageWords b, BitVec.ofNat 6 k⟩ }) := by
  rw [step_of_transform (transformAfter b s k) _ rfl hn, regsAfter_succ]
  rfl

/-- Before step 63 the index goes up by one (R28). -/
theorem step_transformAfter_of_lt {k : Nat} (hk : k < 63) :
    step (transformAfter b s k) = .next (transformAfter b s (k + 1)) := by
  have hi : BitVec.ofNat 6 k ≠ 63 := by bv_omega
  have hnext : BitVec.ofNat 6 (k + 1) = BitVec.ofNat 6 k + 1 := BitVec.ofNat_add ..
  rw [step_transformAfter b hn, advanceSequencer_of_ne s _ _ hi, transformAfter, hnext]

/-- Step 63 adds the registers back and ends the transform (R100). -/
theorem step_transformAfter_last :
    step (transformAfter b s 63) = .next { s with hash := transform s.hash b, transform := none } := by
  rw [step_transformAfter b hn, transform_eq_addBack_regsAfter]
  exact congrArg _ (advanceSequencer_last s _ _)

/-- Up to step 63 a run of `k` machine steps does the first `k` steps. -/
theorem iterate_beginTransform {k : Nat} (hk : k ≤ 63) :
    iterate k (beginTransform b s) = .next (transformAfter b s k) := by
  induction k with
  | zero => rfl
  | succ k ih => rw [iterate_succ_last k _ _ (ih (by omega)), step_transformAfter_of_lt b hn hk]

end

/-- Settles O34: 63 steps reach the last index, and the last step ends the transform. -/
theorem sixtyFourStepsComputeTransform : Obligations.SixtyFourStepsComputeTransform := by
  intro s b hn
  rw [iterate_succ_last 63 _ _ (iterate_beginTransform b hn (Nat.le_refl 63)), step_transformAfter_last b hn]

/-! ## The rotating form -/

/-- The working registers in the order of their roles at position `p` (R65, R108): updated register first. -/
def Working.inRoles (p : BitVec 2) (r : Working) : Working :=
  ⟨r.get (roles p).1, r.get (roles p).2.1, r.get (roles p).2.2.1, r.get (roles p).2.2.2⟩

/-- At position 0 the roles are the registers' own order. -/
theorem inRoles_zero (r : Working) : r.inRoles 0 = r := rfl

/-- From one position to the next every role moves on by one register (R65). -/
theorem roles_succ (p : BitVec 2) :
    roles (p + 1) = ((roles p).2.2.2, (roles p).1, (roles p).2.1, (roles p).2.2.1) := by
  revert p
  decide

/-- From one position to the next every register moves on by one place. -/
theorem inRoles_succ (p : BitVec 2) (r : Working) :
    r.inRoles (p + 1) = ⟨(r.inRoles p).d, (r.inRoles p).a, (r.inRoles p).b, (r.inRoles p).c⟩ := by
  rw [Working.inRoles, roles_succ]
  rfl

/-- The updated register of a position is none of the three it is computed from (R65). -/
theorem roles_ne (p : BitVec 2) :
    (roles p).2.1 ≠ (roles p).1 ∧ (roles p).2.2.1 ≠ (roles p).1 ∧ (roles p).2.2.2 ≠ (roles p).1 := by
  revert p
  decide

/-- The fixed roles of step `i`, moved on by one place, are the roles of the step after it (R108). -/
theorem rotatingStep_inRoles (x : MessageWords) (r : Working) (i : BitVec 6) :
    rotatingStep x (r.inRoles (i.extractLsb' 0 2)) i = (templateStep i x r).inRoles (i.extractLsb' 0 2 + 1) := by
  obtain ⟨hx, hy, hz⟩ := roles_ne (i.extractLsb' 0 2)
  rw [inRoles_succ]
  simp [rotatingStep, templateStep, roundStep, Working.inRoles, hx, hy, hz]

/-- The position of a step is its number modulo 4, so it goes up by one with the step (R65). -/
theorem position_succ (k : Nat) :
    (BitVec.ofNat 6 (k + 1)).extractLsb' 0 2 = (BitVec.ofNat 6 k).extractLsb' 0 2 + 1 := by
  apply BitVec.eq_of_toNat_eq
  simp

/-- The first `k` rotating steps leave the registers of the first `k` steps, in the order of their roles at `k` (R108). -/
theorem foldl_rotatingStep (x : MessageWords) (r : Working) (k : Nat) :
    ((List.range k).map (BitVec.ofNat 6)).foldl (rotatingStep x) r =
      (regsAfter x r k).inRoles ((BitVec.ofNat 6 k).extractLsb' 0 2) := by
  induction k with
  | zero => rfl
  | succ k ih =>
    rw [List.range_succ, List.map_append, List.foldl_append, ih, regsAfter_succ, stepFn_eq_templateStep, position_succ,
      ← rotatingStep_inRoles]
    rfl

/-- Settles O33: after 64 steps every register is back in its own role. -/
theorem transformEqualsRotatingForm : Obligations.TransformEqualsRotatingForm := by
  intro h b
  have hlast : (BitVec.ofNat 6 64).extractLsb' 0 2 = 0 := by decide
  rw [rotatingTransform, foldl_rotatingStep, hlast, inRoles_zero, transform_eq_addBack_regsAfter]

end Sys2Proof.Machine
end

section
/-! SUPPORT. The round functions bit by bit (43_round1_F.md rule R110, 44_round2_G.md rule R130, 45_round3_H.md rule R150,
46_round4_I.md rule R170): `F` and `G` choose, `H` is a parity, `I` inverts. -/

namespace Sys2Proof.Machine

section

variable (x y z : Word) {j : Nat}

/-- `F` chooses by `x`: at each bit, one of `x` and its complement keeps its operand and the other clears it (R110). -/
theorem getLsbD_mixF (hj : j < 32) :
    (mixF x y z).getLsbD j = if x.getLsbD j then y.getLsbD j else z.getLsbD j := by
  have hmasks : (mixF x y z).getLsbD j = (x.getLsbD j && y.getLsbD j || !x.getLsbD j && z.getLsbD j) := by
    simp [mixF, hj]
  rw [hmasks]
  cases x.getLsbD j <;> simp

/-- `G` is `F` with its choosing operand moved to the last place (R130). -/
theorem mixG_eq_mixF : mixG x y z = mixF z x y := by
  rw [mixG, mixF, BitVec.and_comm x z, BitVec.and_comm y]

/-- `H` is the parity of the three bits (R150). -/
theorem getLsbD_mixH : (mixH x y z).getLsbD j = (x.getLsbD j ^^ y.getLsbD j ^^ z.getLsbD j) := by
  rw [mixH, BitVec.getLsbD_xor, BitVec.getLsbD_xor]

/-- `I` inverts `y` where `x` is 1 or `z` is 0; the complement of `z` has no bit past 31 (R170). -/
theorem getLsbD_mixI (hj : j < 32) :
    (mixI x y z).getLsbD j = (y.getLsbD j ^^ (x.getLsbD j || !z.getLsbD j)) := by
  simp [mixI, hj]

end

/-- Settles O37: `F` by its two masks, `G` as `F` chosen by `z`, `H` and `I` by their operators on bits. -/
theorem roundFunctionsBitByBit : Obligations.RoundFunctionsBitByBit := by
  intro x y z j hj
  have hG : (mixG x y z).getLsbD j = if z.getLsbD j then x.getLsbD j else y.getLsbD j := by
    rw [mixG_eq_mixF, getLsbD_mixF z x y hj]
  exact ⟨getLsbD_mixF x y z hj, hG, getLsbD_mixH x y z, getLsbD_mixI x y z hj⟩

end Sys2Proof.Machine
end

section
/-! SUPPORT. The effect of one step (30_encoding.md rule R64, 42_block_transform.md rule R101): what holds of every index,
and the rules of round 1 (43_round1_F.md rules R111 to R126) read from it. -/

namespace Sys2Proof.Machine

open Sys2Proof.Safety

/-- Every index stands for the instruction it decodes to, and that instruction runs the step function of the index on the
working registers and changes nothing else (R64, R101). -/
theorem stepEffect_decodeStep (i : BitVec 6) :
    StepEffect i (decodeStep i) fun a b c d X => stepFn i X ⟨a, b, c, d⟩ := by
  refine ⟨rfl, encode_decodeStep i, fun s a b c d X j ht => ?_⟩
  rw [exec_decodeStep, inTransform_some i _ s _ ht]

/-- Settles O45: the effect of every index, read at 0 to 7, where the step functions are those of R111 to R118: the shared
step on the registers, word, amount and constant of each rule, which is what the statement writes out. -/
theorem stepsFF00ToFF07WriteOneRegister : Obligations.StepsFF00ToFF07WriteOneRegister :=
  ⟨stepEffect_decodeStep 0, stepEffect_decodeStep 1, stepEffect_decodeStep 2, stepEffect_decodeStep 3,
    stepEffect_decodeStep 4, stepEffect_decodeStep 5, stepEffect_decodeStep 6, stepEffect_decodeStep 7⟩

/-- Settles O46: the effect of every index, read at 8 to 15, where the step functions are those of R119 to R126. -/
theorem stepsFF08ToFF15WriteOneRegister : Obligations.StepsFF08ToFF15WriteOneRegister :=
  ⟨stepEffect_decodeStep 8, stepEffect_decodeStep 9, stepEffect_decodeStep 10, stepEffect_decodeStep 11,
    stepEffect_decodeStep 12, stepEffect_decodeStep 13, stepEffect_decodeStep 14, stepEffect_decodeStep 15⟩

end Sys2Proof.Machine
end

section
/-! SUPPORT. The rules of round 2 (44_round2_G.md rules R131 to R146), read from the effect of every index. -/

namespace Sys2Proof.Machine

/-- Settles O47: the effect of every index, read at 16 to 23, where the step functions are those of R131 to R138: the
shared step with `mixG` on the registers, word, amount and constant of each rule, which is what the statement writes
out. -/
theorem stepsGG16ToGG23WriteOneRegister : Obligations.StepsGG16ToGG23WriteOneRegister :=
  ⟨stepEffect_decodeStep 16, stepEffect_decodeStep 17, stepEffect_decodeStep 18, stepEffect_decodeStep 19,
    stepEffect_decodeStep 20, stepEffect_decodeStep 21, stepEffect_decodeStep 22, stepEffect_decodeStep 23⟩

/-- Settles O48: the effect of every index, read at 24 to 31, where the step functions are those of R139 to R146. -/
theorem stepsGG24ToGG31WriteOneRegister : Obligations.StepsGG24ToGG31WriteOneRegister :=
  ⟨stepEffect_decodeStep 24, stepEffect_decodeStep 25, stepEffect_decodeStep 26, stepEffect_decodeStep 27,
    stepEffect_decodeStep 28, stepEffect_decodeStep 29, stepEffect_decodeStep 30, stepEffect_decodeStep 31⟩

end Sys2Proof.Machine
end

section
/-! SUPPORT. The rules of round 3 (45_round3_H.md rules R151 to R166), read from the effect of every index. -/

namespace Sys2Proof.Machine

/-- Settles O49: the effect of every index, read at 32 to 39, where the step functions are those of R151 to R158: the
shared step with `mixH` on the registers, word, amount and constant of each rule, which is what the statement writes
out. -/
theorem stepsHH32ToHH39WriteOneRegister : Obligations.StepsHH32ToHH39WriteOneRegister :=
  ⟨stepEffect_decodeStep 32, stepEffect_decodeStep 33, stepEffect_decodeStep 34, stepEffect_decodeStep 35,
    stepEffect_decodeStep 36, stepEffect_decodeStep 37, stepEffect_decodeStep 38, stepEffect_decodeStep 39⟩

/-- Settles O50: the effect of every index, read at 40 to 47, where the step functions are those of R159 to R166. -/
theorem stepsHH40ToHH47WriteOneRegister : Obligations.StepsHH40ToHH47WriteOneRegister :=
  ⟨stepEffect_decodeStep 40, stepEffect_decodeStep 41, stepEffect_decodeStep 42, stepEffect_decodeStep 43,
    stepEffect_decodeStep 44, stepEffect_decodeStep 45, stepEffect_decodeStep 46, stepEffect_decodeStep 47⟩

end Sys2Proof.Machine
end

section
/-! SUPPORT. The rules of round 4 (46_round4_I.md rules R171 to R186), read from the effect of every index. -/

namespace Sys2Proof.Machine

/-- Settles O51: the effect of every index, read at 48 to 55, where the step functions are those of R171 to R178: the
shared step with `mixI` on the registers, word, amount and constant of each rule, which is what the statement writes
out. -/
theorem stepsII48ToII55WriteOneRegister : Obligations.StepsII48ToII55WriteOneRegister :=
  ⟨stepEffect_decodeStep 48, stepEffect_decodeStep 49, stepEffect_decodeStep 50, stepEffect_decodeStep 51,
    stepEffect_decodeStep 52, stepEffect_decodeStep 53, stepEffect_decodeStep 54, stepEffect_decodeStep 55⟩

/-- Settles O52: the effect of every index, read at 56 to 63, where the step functions are those of R179 to R186. -/
theorem stepsII56ToII63WriteOneRegister : Obligations.StepsII56ToII63WriteOneRegister :=
  ⟨stepEffect_decodeStep 56, stepEffect_decodeStep 57, stepEffect_decodeStep 58, stepEffect_decodeStep 59,
    stepEffect_decodeStep 60, stepEffect_decodeStep 61, stepEffect_decodeStep 62, stepEffect_decodeStep 63⟩

end Sys2Proof.Machine
end

section
/-! SUPPORT. The little-endian codec in both directions (48_codec.md rules R200 to R204): the two halves of the word codec
invert each other, the trailer is two words, and the digest's bytes are those of the hash words. -/

namespace Sys2Proof.Machine

/-- Encoding a decoded word gives its four bytes back (R203). -/
theorem encode32LE_decode32LE (b0 b1 b2 b3 : Byte) : encode32LE (decode32LE b0 b1 b2 b3) = [b0, b1, b2, b3] := by
  have hbyte := extractLsb'_decode32LE ![b0, b1, b2, b3]
  simpa [encode32LE] using And.intro (hbyte 0) ⟨hbyte 1, hbyte 2, hbyte 3⟩

/-- Decoding the four bytes of a word gives the word back (R203). -/
theorem decode32LE_extractLsb' (w : Word) :
    decode32LE (w.extractLsb' 0 8) (w.extractLsb' 8 8) (w.extractLsb' 16 8) (w.extractLsb' 24 8) = w := by
  apply BitVec.eq_of_toNat_eq
  simp only [toNat_decode32LE, BitVec.extractLsb'_toNat, Nat.shiftRight_eq_div_pow]
  have := w.isLt
  omega

/-- Settles O41: the little-endian sum, and the two inversions. -/
theorem wordCodecRoundTrip : Obligations.WordCodecRoundTrip :=
  ⟨fun b0 b1 b2 b3 => ⟨toNat_decode32LE b0 b1 b2 b3, encode32LE_decode32LE b0 b1 b2 b3⟩,
    fun w => ⟨_, _, _, _, rfl, decode32LE_extractLsb' w⟩⟩

/-- A byte that lies inside a half of the count is a byte of the count. -/
theorem extractLsb'_extractLsb'_byte (v : Count) (start k : Nat) (h : k ≤ 24) :
    (v.extractLsb' start 32).extractLsb' k 8 = v.extractLsb' (start + k) 8 := by
  ext j hj
  simp only [BitVec.getElem_extractLsb', BitVec.getLsbD_extractLsb', Nat.add_assoc]
  simp [show k + j < 32 by omega]

/-- Settles O42: the eight bytes are those of the low half and then those of the high half; byte `k` stands at place `k`. -/
theorem countCodecLowHalfFirst : Obligations.CountCodecLowHalfFirst := by
  intro v
  refine ⟨?halves, rfl, fun k hk => ?byte⟩
  case halves => simp [encode64LE, encode32LE, extractLsb'_extractLsb'_byte]
  case byte => interval_cases k <;> rfl

/-- Settles O44: each of the sixteen places of the digest, by computation. -/
theorem digestBytesInWordOrder : Obligations.DigestBytesInWordOrder := by
  intro h j k
  fin_cases j <;> fin_cases k <;> rfl

end Sys2Proof.Machine
end

section
/-! SUPPORT. Faults and reset (60_exceptions.md rules R210 to R219; 70_reset_and_hazards.md rule R230): a faulted engine
refuses every command and only answers reads, until a reset. -/

namespace Sys2Proof.Machine

open Sys2Proof.Safety

/-- Settles O13: the reserved word raises the fault after the sticky-fault check. -/
theorem reservedOpRaisesIllegalOp : Obligations.ReservedOpRaisesIllegalOp := exec_reserved3

/-- Settles O14: UPDATE's lifecycle check raises the fault before the payload is used. -/
theorem updateWithoutContextFaults : Obligations.UpdateWithoutContextFaults :=
  fun _ data hf hl => exec_update_dead data hf hl

/-- FINAL on an unfaulted engine with no live context faults (R211). -/
theorem exec_final_dead {s : State} (hf : s.fault = false) (hl : s.live = false) :
    exec .final s = .next (raiseFault .misuseFinal s) := by
  rw [exec_final s hf, if_neg (by simp [hl])]

/-- Settles O15: FINAL's lifecycle check raises the fault before anything is padded. -/
theorem finalWithoutContextFaults : Obligations.FinalWithoutContextFaults := fun _ => exec_final_dead

/-- A faulted engine refuses command words, whether or not they decode (R213, R219; Log 8). -/
theorem runCommand_of_fault (w : CommandWords) {s : State} (hf : s.fault = true) :
    runCommand w s = .next (refuseCommand s) := by
  obtain ⟨i, hi, -, hrun⟩ | ⟨e, -, hrun⟩ := runCommand_cases w s
  · rw [hrun, exec_of_fault i s hi hf]
  · rw [hrun, rejectWords, if_pos hf]

/-- A reset is taken up before anything else, in any state (R217, R230). -/
theorem step_of_reset {s : State} {w : Option CommandWords} {rest : List HostAction} (hp : s.pending = .reset w :: rest) :
    step s = .next (applyReset rest) := by
  have hm : nextMove s = .reset rest := by rw [nextMove, hp]
  rw [step, hm]

/-- Settles O16: every command is refused on the sticky fault, its words are refused with it, and reset clears it. -/
theorem stickyFaultRefusesEveryCommand : Obligations.StickyFaultRefusesEveryCommand := by
  intro s hf
  refine ⟨fun i hi => exec_of_fault i s hi hf, fun w rest hp ht => ?command, fun w rest hp => ?reset⟩
  case command =>
    rw [step_of_command s w rest hp ht, runCommand_of_fault w (s := takePending rest s) hf]
    rfl
  case reset => exact ⟨_, step_of_reset hp, rfl, rfl⟩

/-- Settles O2: one step is `applyReset`, which gives every register the value of `State.reset`. -/
theorem resetActionClearsEveryRegister : Obligations.ResetActionClearsEveryRegister := by
  intro s w rest hp
  obtain ⟨hhash, hcount, hbuffer, hlive, hfault, hcause, hdigest, htransform, -⟩ := resetValueOfEveryRegister
  exact ⟨_, step_of_reset hp, hhash, hcount, hbuffer, hlive, hfault, hcause, hdigest, htransform, rfl, rfl⟩

/-- One step of a faulted engine between commands, with no reset to come, changes the result and the action list only. -/
theorem step_of_fault {s : State} (hf : s.fault = true) (ht : s.transform = none) (hn : noReset s.pending) :
    ∃ r p, step s = .next { s with result := r, pending := p } ∧ noReset p := by
  have hrest : ∀ {a rest}, s.pending = a :: rest → noReset rest := fun hp w hw =>
    hn w (hp ▸ List.mem_cons_of_mem _ hw)
  obtain ⟨w, _, hp, -⟩ | ⟨_, hr, -, -⟩ | ⟨-, ⟨-, h⟩ | ⟨rest, hp, h⟩ | ⟨rest, hp, h⟩ | ⟨w, rest, hp, h⟩⟩ := step_cases s
  · exact absurd (hp ▸ List.mem_cons_self) (hn w)
  · simp [ht] at hr
  · exact ⟨_, _, h, hn⟩
  · exact ⟨_, rest, h, hrest hp⟩
  · exact ⟨_, rest, h, hrest hp⟩
  · exact ⟨_, rest, h.trans (runCommand_of_fault w (s := takePending rest s) hf), hrest hp⟩

/-- Settles O17, by induction on the number of steps: the state after a step differs in the result and the action list only, so
it is faulted, between commands and without a reset to come like the first. -/
theorem faultedEngineIsFrozenUntilReset : Obligations.FaultedEngineIsFrozenUntilReset := by
  intro k
  induction k with
  | zero => exact fun s _ _ _ => ⟨s.result, s.pending, rfl⟩
  | succ k ih =>
    intro s hf ht hn
    obtain ⟨r, p, hstep, hp⟩ := step_of_fault hf ht hn
    rw [iterate, hstep]
    exact ih { s with result := r, pending := p } hf ht hp

end Sys2Proof.Machine
end

section
/-! SUPPORT. FINAL (47_final.md rules R190 to R197): the padding and the trailer through the datapath, FINAL of a ready
context as a full next state, and the context that has taken in a message, which FINAL turns into the closed-form digest. -/

namespace Sys2Proof.Machine

open Sys2Proof.Safety

/-! ## The padding -/

/-- `padlen` is in 1 to 64 and brings a fill level to 56 modulo 64 (R192). -/
theorem padLen_spec {index : Nat} (h : index < 64) :
    1 ≤ padLen index ∧ padLen index ≤ 64 ∧ (index + padLen index) % 64 = 56 := by
  unfold padLen
  split <;> omega

/-- Padding and trailer complete one block up to fill level 55, and two blocks above (R190). -/
theorem fill_padLen_trailer {index : Nat} (h : index < 64) :
    index + padLen index + 8 = 64 * if index ≤ 55 then 1 else 2 := by
  unfold padLen
  split <;> split <;> omega

/-- The marker comes first and zero bytes follow (R192). -/
theorem padding_getD {index j : Nat} (h : j < padLen index) :
    (padding index).getD j 0 = if j = 0 then 0x80#8 else 0x00#8 := by
  cases j with
  | zero => rfl
  | succ j =>
    have hj : j < padLen index - 1 := by omega
    simp [padding, hj]

/-- What a padding of two blocks leaves after the first: 56 zero bytes (R192). -/
theorem drop_append_padding (l : List Byte) (hl : l.length < 64) (h : 56 ≤ l.length) :
    (l ++ padding l.length).drop 64 = List.replicate 56 0 := by
  obtain ⟨d, hd⟩ : ∃ d, 64 - l.length = d + 1 := ⟨63 - l.length, by omega⟩
  have hzeros : padLen l.length - 1 - d = 56 := by
    unfold padLen
    split <;> omega
  rw [List.drop_append, List.drop_eq_nil_of_le (by omega), hd, padding, List.drop_succ_cons, List.drop_replicate, hzeros,
    List.nil_append]

/-- Settles O26: the arithmetic of `padlen`; and the datapath's blocks, none or one, on the valid bytes and the padding. -/
theorem paddingBringsFillTo56 : Obligations.PaddingBringsFillTo56 := by
  intro s hw
  have hf := fillLevel_lt s.bitCount
  obtain ⟨hpos, hle, hmod⟩ := padLen_spec hf
  have hhash := updateCore_hash (padding (fillLevel s.bitCount)) s hw
  have hvalid := updateCore_validBytes (padding (fillLevel s.bitCount)) s hw
  have hfill : fillLevel (updateCore (padding (fillLevel s.bitCount)) s).bitCount = 56 := by
    rw [updateCore_bitCount, fillLevel_addBits, length_padding_fillLevel, hmod]
  rw [length_padding_fillLevel] at hhash hvalid
  refine ⟨length_padding_fillLevel _, hpos, hle, hmod, fun n _ _ _ => by omega, rfl, fun j => padding_getD, hfill,
    fun hlow => ?below, fun hhigh => ?above⟩
  case below =>
    have hblocks : (fillLevel s.bitCount + padLen (fillLevel s.bitCount)) / 64 = 0 := by
      rw [padLen, if_pos hlow]
      omega
    rw [hblocks] at hhash hvalid
    exact ⟨hhash, hvalid⟩
  case above =>
    have hblocks : (fillLevel s.bitCount + padLen (fillLevel s.bitCount)) / 64 = 1 := by
      rw [padLen, if_neg (by omega)]
      omega
    have hdrop := drop_append_padding (validBytes s) (by rwa [length_validBytes]) (by rwa [length_validBytes])
    rw [length_validBytes] at hdrop
    rw [hblocks] at hhash hvalid
    exact ⟨hhash.trans (chain_one _ _), hvalid.trans hdrop⟩

/-! ## The trailer -/

/-- Settles O27: at fill level 56 the trailer's eight bytes are just the deficit, so the long branch runs one transform and
leaves the flushed block in the buffer. -/
theorem trailerTriggersOneTransform : Obligations.TrailerTriggersOneTransform := by
  intro s c hw h56
  have hhash := updateCore_hash (encode64LE c) s hw
  have hlong : updateCore (encode64LE c) s = updateLong (encode64LE c) s := by
    rw [updateCore, dif_neg (by rw [length_encode64LE]; omega)]
  have hfill : fillLevel (updateCore (encode64LE c) s).bitCount = 0 := by
    rw [updateCore_bitCount, fillLevel_addBits, length_encode64LE, h56]
  rw [length_encode64LE, h56] at hhash
  refine ⟨hhash.trans (chain_one _ _), hfill, ?emptyTail, fun j hj => ?bytes⟩
  case emptyTail => exact List.eq_nil_of_length_eq_zero ((length_validBytes _).trans hfill)
  case bytes =>
    have hread := updateLong_read_above (encode64LE c) s hw (by rw [length_encode64LE]; omega) (56 + j)
      (by rw [length_encode64LE]; omega) (by omega)
    have hvalid : (validBytes s).length = 56 := (length_validBytes s).trans h56
    rw [hlong, hread, List.getD_append_right _ _ _ _ (by omega), hvalid, Nat.add_sub_cancel_left]

/-! ## FINAL of a ready context -/

/-- FINAL on a live, unfaulted engine pads, flushes and finishes (R190). -/
theorem exec_final_live {s : State} (hf : s.fault = false) (hl : s.live = true) :
    exec .final s = .next (finishDigest (padAndFlush s)) := by
  rw [exec_final s hf, if_pos hl]

/-- FINAL on a ready context as a full next state: the chain over the valid bytes, the padding and the trailer is the digest,
the context is zeroed, and nothing else changes (R190). -/
theorem exec_final_ready {s : State} (hr : Ready s) {out : Digest}
    (hout : out = digestOf (chain s.hash (paddedTail (padLen (fillLevel s.bitCount)) s)
      ((fillLevel s.bitCount + padLen (fillLevel s.bitCount) + 8) / 64))) :
    exec .final s = .next { s with
      hash := ⟨0, 0, 0, 0⟩, bitCount := 0, buffer := [], live := false, digest := out, result := .digest out } := by
  rw [exec_final_live hr.unfaulted hr.isLive, finishDigest, padAndFlush_hash s hr.canonical, ← hout, padAndFlush_frame]

/-- Settles O28: the two refusing checks, and on a ready context the full next state with its one or two blocks. -/
theorem finalReturnsDigestAndZeroizes : Obligations.FinalReturnsDigestAndZeroizes := by
  refine ⟨rfl, fun s => ⟨fun hf => ?faulted, fun hf hl => ?dead, fun hr => ?ready⟩⟩
  case faulted => exact exec_of_fault .final s rfl hf
  case dead => exact exec_final_dead hf hl
  case ready =>
    intro padlen last n out
    have hlen : fillLevel s.bitCount + padLen (fillLevel s.bitCount) + 8 = 64 * n :=
      fill_padLen_trailer (fillLevel_lt s.bitCount)
    have hlast : last = validBytes s ++ padding (fillLevel s.bitCount) ++ encode64LE s.bitCount := paddedTail_padLen s
    refine ⟨?length, exec_final_ready hr ?digest⟩
    case length =>
      rw [hlast, List.length_append, List.length_append, length_validBytes, length_padding_fillLevel, length_encode64LE,
        hlen]
    case digest =>
      rw [hlen, Nat.mul_div_cancel_left n (by decide)]
      rfl

/-! ## The message of a context -/

/-- The context has taken in the message `M` since INIT: its full blocks are chained, the rest is buffered (I3 of R27). -/
structure HoldsMessage (M : List Byte) (s : State) : Prop where
  /-- The full blocks of the message are transformed, in order. -/
  hash : s.hash = chain initHash M (M.length / 64)
  /-- The count is the message's length in bits, modulo `2^64`. -/
  bitCount : s.bitCount = BitVec.ofNat 64 (8 * M.length)
  /-- The valid bytes are the rest of the message. -/
  valid : validBytes s = M.drop (64 * (M.length / 64))

/-- `z = (55 - L) mod 64` counts the padding's zero bytes, so `Pad(M)` ends in FINAL's padding and trailer (R192, R197). -/
theorem padMessage_eq (M : List Byte) : padMessage M =
    M ++ (padding (M.length % 64) ++ encode64LE (BitVec.ofNat 64 (8 * M.length))) := by
  have hzeros : ((55 - (M.length : Int)) % 64).toNat = padLen (M.length % 64) - 1 := by
    unfold padLen
    split <;> omega
  simp [padMessage, padding, hzeros]

/-- `Pad(M)` is as many whole blocks as those of the message and those FINAL adds (R190, R197). -/
theorem blockCount_eq (L : Nat) : blockCount L = L / 64 + (L % 64 + padLen (L % 64) + 8) / 64 := by
  unfold blockCount padLen
  split <;> omega

/-- `Pad(M)` is `N` whole blocks (R197). -/
theorem length_padMessage (M : List Byte) : (padMessage M).length = 64 * blockCount M.length := by
  simp only [padMessage, blockCount, List.length_append, List.length_replicate, List.length_singleton, length_encode64LE]
  omega

section

variable {M : List Byte} {s : State}

/-- The fill level of a context is what the message's full blocks leave (I2 of R27). -/
theorem HoldsMessage.fillLevel_bitCount (h : HoldsMessage M s) : fillLevel s.bitCount = M.length % 64 := by
  rw [h.bitCount, fillLevel_eq, BitVec.toNat_ofNat]
  omega

/-- FINAL's message bytes are the blocks of `Pad(M)` that are not yet transformed (R191, R197). -/
theorem HoldsMessage.paddedTail_eq (h : HoldsMessage M s) :
    paddedTail (padLen (fillLevel s.bitCount)) s = (padMessage M).drop (64 * (M.length / 64)) := by
  rw [paddedTail_padLen, h.fillLevel_bitCount, h.valid, h.bitCount, padMessage_eq, List.append_assoc,
    List.drop_append_of_le_length (by omega)]

/-- The chain over FINAL's message bytes completes the chain over `Pad(M)` (R197). -/
theorem HoldsMessage.refDigest_eq (h : HoldsMessage M s) :
    refDigest M = digestOf (chain s.hash (paddedTail (padLen (fillLevel s.bitCount)) s)
      ((fillLevel s.bitCount + padLen (fillLevel s.bitCount) + 8) / 64)) := by
  have hdone : chain initHash (padMessage M) (M.length / 64) = s.hash := by
    rw [h.hash, padMessage_eq, chain_append _ _ _ _ (by omega)]
  rw [refDigest, blockCount_eq, chain_add, hdone, h.paddedTail_eq, h.fillLevel_bitCount]

end

/-- After INIT and any UPDATEs the context is ready and holds the concatenated payloads; what FINAL does not write is as it
was (R91). -/
theorem execAll_init_updates {s : State} (ps : List (List Byte)) (hf : s.fault = false) (hw : s.buffer.wf) :
    ∃ t, execAll (.init :: ps.map .update) s = .next t ∧ Ready t ∧ HoldsMessage ps.flatten t ∧
      t.cause = s.cause ∧ t.transform = s.transform ∧ t.pending = s.pending := by
  obtain ⟨t, hx, hhash, hcount, hvalid, hlive, hfault, -⟩ := updatesFoldAlignedBlocks s ps hf hw
  obtain ⟨u, hu, ha⟩ := execAll_updates (s := initContext s) ps ⟨hf, rfl, hw⟩ rfl
  obtain rfl : t = u := by
    rw [execAll_cons_of_next _ (exec_init s hf), hu] at hx
    cases hx
    rfl
  refine ⟨t, hx, ⟨hfault, hlive, ha.canonical.2⟩, ⟨hhash, hcount, hvalid⟩, ?cause, ?transform, ?pending⟩
  case cause => simp [← ha.flags.2.2]
  case transform => simp [← ha.transform]
  case pending => simp [← ha.host.2]

end Sys2Proof.Machine
end

section
/-! SUPPORT. Runs on a list of commands (70_reset_and_hazards.md rules R235, R236): a command does not read the action list,
so the machine's steps on command words are the instructions they decode to, executed in order; and the digest of a run. -/

namespace Sys2Proof.Machine

open Sys2Proof.Safety

/-! ## Commands and the action list -/

/-- The datapath does not read the action list. -/
theorem updateCore_takePending (data : List Byte) (p : List HostAction) (s : State) :
    updateCore data (takePending p s) = takePending p (updateCore data s) := by
  unfold updateCore takePending
  dsimp only
  split <;> rfl

/-- FINAL's padding and trailer do not read the action list. -/
theorem padAndFlush_takePending (p : List HostAction) (s : State) :
    padAndFlush (takePending p s) = takePending p (padAndFlush s) := by
  simp only [padAndFlush, updateCore_takePending, takePending_bitCount]

/-- A command neither reads the action list nor touches a transform's locals (R236; Log 1, Log 3). -/
theorem exec_takePending {i : Instr} {s t : State} (p : List HostAction) (hi : i.isStep = false)
    (h : exec i s = .next t) :
    exec i (takePending p s) = .next (takePending p t) ∧ t.transform = s.transform := by
  have hupdate (data) : updateContext data (takePending p s) = takePending p (updateContext data s) := by
    rw [updateContext, updateCore_takePending]
    rfl
  have hfinal : finishDigest (padAndFlush (takePending p s)) = takePending p (finishDigest (padAndFlush s)) := by
    rw [padAndFlush_takePending]
    rfl
  obtain ⟨hf, hx⟩ | ⟨hf, ⟨rfl, hx⟩ | ⟨data, rfl, hl, hx⟩ | ⟨data, rfl, hl, hx⟩ | ⟨rfl, hl, hx⟩ | ⟨rfl, hl, hx⟩ | ⟨rfl, hx⟩⟩ :=
    exec_command i s hi
  all_goals
    rw [hx] at h
    cases h
  · exact ⟨exec_of_fault i _ hi hf, rfl⟩
  · exact ⟨exec_init _ hf, rfl⟩
  · exact ⟨hupdate data ▸ exec_update_live data hf hl, updateCore_transform data s⟩
  · exact ⟨exec_update_dead data hf hl, rfl⟩
  · exact ⟨hfinal ▸ exec_final_live hf hl, padAndFlush_transform s⟩
  · exact ⟨exec_final_dead hf hl, rfl⟩
  · exact ⟨exec_reserved3 _ hf, rfl⟩

/-! ## Steps on command words -/

/-- The host action is command words that decode to `i`. -/
def Carries (a : HostAction) (i : Instr) : Prop := i.isStep = false ∧ ∃ w, a = .command w ∧ decode (.command w) = .ok i

/-- Taking command words from the list one step at a time executes the instructions they carry, in order (R48, R236). -/
theorem iterate_of_execAll {as : List HostAction} {is : List Instr} (hc : List.Forall₂ Carries as is)
    (rest : List HostAction) {s t : State} (ht : s.transform = none) (h : execAll is s = .next t) :
    iterate is.length (takePending (as ++ rest) s) = .next (takePending rest t) := by
  induction hc generalizing s with
  | nil =>
    cases h
    rfl
  | @cons a i as is ha _ ih =>
    obtain ⟨hi, w, rfl, hd⟩ := ha
    obtain ⟨u, hu⟩ := exec_command_next i s hi
    obtain ⟨hnext, htransform⟩ := exec_takePending (as ++ rest) hi hu
    have hstep : step (takePending (.command w :: (as ++ rest)) s) = .next (takePending (as ++ rest) u) :=
      (stepRunsDecodedCommand (takePending _ s) w _ i rfl ht hd).trans hnext
    rw [execAll_cons_of_next _ hu] at h
    rw [List.length_cons, iterate, List.cons_append, hstep]
    exact ih (htransform.trans ht) h

/-! ## The run of a digest -/

/-- The instructions of a digest run: INIT, one UPDATE per payload, FINAL (R70, R233). -/
def digestInstrs (ps : List (List Byte)) : List Instr := .init :: ps.map .update ++ [.final]

/-- The host's words for one digest carry the instructions of the run (R61, R70). -/
theorem carries_digestCommands (ps : List (List Byte)) : List.Forall₂ Carries (digestCommands ps) (digestInstrs ps) := by
  have hupdates : List.Forall₂ Carries (ps.map fun p => .command ⟨0b01#2, p⟩) (ps.map .update) := by
    rw [List.forall₂_map_left_iff, List.forall₂_map_right_iff, List.forall₂_same]
    exact fun p _ => ⟨rfl, _, rfl, rfl⟩
  exact List.rel_append (.cons ⟨rfl, _, rfl, rfl⟩ hupdates) (.cons ⟨rfl, _, rfl, rfl⟩ .nil)

/-- A sequence of instructions goes on from what its first part leaves. -/
theorem execAll_append {is : List Instr} (js : List Instr) {s t : State} (h : execAll is s = .next t) :
    execAll (is ++ js) s = execAll js t := by
  induction is generalizing s with
  | nil =>
    cases h
    rfl
  | cons i is ih =>
    rw [execAll] at h
    rw [List.cons_append, execAll]
    cases hi : exec i s with
    | next u => exact ih (by rwa [hi] at h)
    | fault r => simp [hi] at h
    | refused r => simp [hi] at h

/-- INIT, any UPDATEs and FINAL: the closed-form digest of the concatenated payloads, a zeroed context, and nothing else
changed (R197). -/
theorem execAll_digestInstrs {s : State} (ps : List (List Byte)) (hf : s.fault = false) (hw : s.buffer.wf) :
    execAll (digestInstrs ps) s = .next { s with
      hash := ⟨0, 0, 0, 0⟩, bitCount := 0, buffer := [], live := false, digest := refDigest ps.flatten,
      result := .digest (refDigest ps.flatten) } := by
  obtain ⟨t, hx, hr, hm, hcause, htransform, hpending⟩ := execAll_init_updates ps hf hw
  rw [digestInstrs, execAll_append _ hx, execAll_cons_of_next _ (exec_final_ready hr hm.refDigest_eq), execAll,
    hr.unfaulted, hf, hcause, htransform, hpending]

/-- Settles O29: the steps on the command words are the instructions they carry, and those return the closed form. -/
theorem digestOfRunIsClosedForm : Obligations.DigestOfRunIsClosedForm := by
  refine ⟨length_padMessage, fun s ps rest hf ht hw hp => ?_⟩
  have hrun := iterate_of_execAll (carries_digestCommands ps) rest ht (execAll_digestInstrs ps hf hw)
  have hlen : (digestInstrs ps).length = ps.length + 2 := by simp [digestInstrs]
  rw [← hp, hlen] at hrun
  exact hrun

end Sys2Proof.Machine
end
